-- ==== Sys2Proof/Word.lean ====
section
/-! DEFINITION. The value types of 00_scope.md R11: a byte is 8 bits, a u16 is 16 bits, a nat is unbounded, and
`bytes` is a finite sequence of bytes. No value is signed. -/

namespace Sys2Proof

/-- An unsigned 8-bit value (R11). -/
abbrev Byte := BitVec 8

/-- An unsigned 16-bit value: the CRC register (R11, R7 `CRC_W`). -/
abbrev U16 := BitVec 16

/-- A finite sequence of bytes (R11). -/
abbrev Bytes := List Byte

/-- The identity of a duplex stream. The spec only ever compares two of them (R162, R169, R198). -/
abbrev Stream := Nat

end Sys2Proof
end

