-- ==== Sys2Proof/Config.lean ====
section
/-! DEFINITION. Implementation parameters: the fixed ones of 00_scope.md R7, the named ones of R9, and the free values. -/

namespace Sys2Proof

/-- `CHUNK` (R7): bytes of file data per data packet, except the final one. -/
def chunkSize : Nat := 1024

/-- `FRAME_L` (R7): payload bytes of a large frame. -/
def frameLarge : Nat := 1024

/-- `FRAME_S` (R7): payload bytes of a small frame and of the header frame. -/
def frameSmall : Nat := 128

/-- `PAD_DATA` (R7): filler of a short data payload. -/
def padData : Byte := 0x1A#8

/-- `PAD_HDR` (R7): filler of the header payload. -/
def padHeader : Byte := 0x00#8

/-- `POLY` (R7): the CRC polynomial, not reflected. -/
def crcPoly : U16 := 0x1021#16

/-- `SOH` (R7): marker of a small frame and of the header frame. -/
def soh : Byte := 0x01#8

/-- `STX` (R7): marker of a large frame. -/
def stx : Byte := 0x02#8

/-- `EOT` (R7): end of transmission. -/
def eot : Byte := 0x04#8

/-- `ACK` (R7). -/
def ctlAck : Byte := 0x06#8

/-- `NAK` (R7). -/
def ctlNak : Byte := 0x15#8

/-- `CA` (R7): cancel. -/
def ctlCa : Byte := 0x18#8

/-- `CPOLL` (R7): the CRC-mode poll 'C'. -/
def ctlC : Byte := 0x43#8

/-- The domain of the parameter `EOT_RETX` (R9). -/
inductive EotRetx where
  | bare
  | frame
  deriving DecidableEq, Repr

/-- The named parameters of R9. A model takes each as an argument: they stand in the state, which every statement
quantifies over, and no step writes them (R35, R202). -/
structure Params where
  /-- `EOT_RETX`: what a NAK sends when the cursor equals the queue length (R141). -/
  eotRetx : EotRetx
  /-- The bytes of `EOT_FRAME` after its first, which R9 fixes at 0x04. -/
  eotTail : Bytes
  /-- `MAX_FILE`: the largest file size, `none` for unbounded. It tells the host what to send; no rule of the block reads it (D5,
  log 5). -/
  maxFile : Option Nat
  deriving DecidableEq, Repr

/-- `EOT_FRAME` (R9, R118): its first byte is 0x04 and its length at least 1, by construction. -/
def Params.eotFrame (P : Params) : Bytes := eot :: P.eotTail

/-- FREE VALUE. The bytes of `EOT_FRAME` after the first are OPEN (R9, D11): no value of them can be proved. -/
opaque Config.eotFrameTail : Bytes

/-- FREE VALUE. The quotient `100 * WRITTEN / TOTAL` for TOTAL = 0, which R137 shows is never formed. -/
opaque Config.progressOverZero : Nat → Nat

/-- The defaults of R9: `EOT_RETX = BARE`, `EOT_FRAME` open, `MAX_FILE` unbounded. -/
def Params.default : Params := { eotRetx := .bare, eotTail := Config.eotFrameTail, maxFile := none }

end Sys2Proof
end

