-- ==== Sys2Proof/Syntax.lean ====
section
/-! DEFINITION. The instructions: one constructor per row of spec/opcode_table.json. Five rows are inbound control bytes
(30_encoding.md R70, R71), eleven are port operations (R84). -/

namespace Sys2Proof

/-- The instruction set of `YMWS-TX`. -/
inductive Instr where
  /-- `C` (0x43), the CRC-mode poll: R131, R132, R133. -/
  | c
  /-- `ACK` (0x06), positive acknowledgment: R134 to R140. -/
  | ack
  /-- `NAK` (0x15), negative acknowledgment: R141. -/
  | nak
  /-- `CA` (0x18), cancel: R142. -/
  | ca
  /-- `OTHER`: any other inbound byte, R143. -/
  | other (b : Byte)
  /-- `START`: creates a session, R162. -/
  | start (stream : Stream) (name data : Bytes)
  /-- `CRC16`: R100. The seed is a natural, because R102 refuses one above 0xFFFF. -/
  | crc16 (buf : Bytes) (start length seed : Nat)
  /-- `SPLIT`: R110. -/
  | split (data : Bytes)
  /-- `BUILD_HEADER`: R113. -/
  | buildHeader (name : Bytes) (size : Nat)
  /-- `BUILD_DATA`: R115. -/
  | buildData (chunk : Bytes) (seq : Nat) (isFinal : Bool)
  /-- `BUILD_EOT`: R118. -/
  | buildEot
  /-- `IN_CHUNK`: a chunk answering one READ_REQ, R165. -/
  | inChunk (chunk : Bytes)
  /-- `IN_EOS`: the end-marker answering one READ_REQ, R166. -/
  | inEos
  /-- `READ_FAIL`: a failed read, R182. -/
  | readFail
  /-- `WRITE_FAIL`: a failed write, R182, R197. -/
  | writeFail
  /-- `WRITE_DONE`: completion of one write, R172. -/
  | writeDone
  deriving DecidableEq, Repr

/-- The rows of format `port` (R84): transactions with no bit encoding. The others are inbound bytes. -/
def Instr.isPort : Instr → Bool
  | .c => false
  | .ack => false
  | .nak => false
  | .ca => false
  | .other _ => false
  | .start _ _ _ => true
  | .crc16 _ _ _ _ => true
  | .split _ => true
  | .buildHeader _ _ => true
  | .buildData _ _ _ => true
  | .buildEot => true
  | .inChunk _ => true
  | .inEos => true
  | .readFail => true
  | .writeFail => true
  | .writeDone => true

end Sys2Proof
end

