-- ==== Sys2Proof/WellFormed.lean ====
section
/-! DEFINITION. Which instructions are well formed. The one check is the catch-all row's: OTHER holds one of the 252 byte
values with no meaning (30_encoding.md R71). Every operand of a port operation is legal syntax: the operand checks of R102,
R114 and R117 are part of the operations, which answer with a refusal code. -/

namespace Sys2Proof

/-- One of the four byte values with a row of their own (R71). -/
def isControl (b : Byte) : Bool := b == ctlC || b == ctlAck || b == ctlNak || b == ctlCa

/-- Well-formedness of an instruction. -/
def Instr.wellFormed : Instr → Bool
  | .c => true
  | .ack => true
  | .nak => true
  | .ca => true
  | .other b => !isControl b
  | .start _ _ _ => true
  | .crc16 _ _ _ _ => true
  | .split _ => true
  | .buildHeader _ _ => true
  | .buildData _ _ _ => true
  | .buildEot => true
  | .inChunk _ => true
  | .inEos => true
  | .readFail => true
  | .writeFail => true
  | .writeDone => true

end Sys2Proof
end

