-- ==== Sys2Proof/Decode.lean ====
section
/-! DEFINITION. Decoding of the inbound control byte (30_encoding.md R70 to R72, R87), total on any bytes, and the encoder
written from the same table. A port operation has no bit encoding (R84). -/

namespace Sys2Proof

/-- Why nothing could be decoded. No inbound byte is illegal (R72), so the one reason is that there is no byte. -/
inductive DecodeError where
  | noByte
  deriving DecidableEq, Repr

/-- R71: the match is on all 8 bits; the catch-all row OTHER is matched last (R87). -/
def decodeByte (b : Byte) : Instr :=
  if b = ctlC then .c
  else if b = ctlAck then .ack
  else if b = ctlNak then .nak
  else if b = ctlCa then .ca
  else .other b

/-- Decode the first instruction of a byte sequence and give back the rest. Every instruction is exactly one byte (R70). -/
def decode : Bytes → Except DecodeError (Instr × Bytes)
  | [] => .error .noByte
  | b :: rest => .ok (decodeByte b, rest)

/-- The bytes of an instruction (R71). A port operation has none (R84). -/
def encode : Instr → Bytes
  | .c => [0x43#8]
  | .ack => [0x06#8]
  | .nak => [0x15#8]
  | .ca => [0x18#8]
  | .other b => [b]
  | .start _ _ _ => []
  | .crc16 _ _ _ _ => []
  | .split _ => []
  | .buildHeader _ _ => []
  | .buildData _ _ _ => []
  | .buildEot => []
  | .inChunk _ => []
  | .inEos => []
  | .readFail => []
  | .writeFail => []
  | .writeDone => []

/-- The bytes of the table's number `w` of `nbits` bits, the least significant first, and at least the one byte that every
instruction has. Bits above `nbits` are 0. -/
def tableBytes (nbits w : Nat) : Bytes :=
  (List.range (max 1 ((nbits + 7) / 8))).map fun k => BitVec.ofNat 8 ((w % 2 ^ nbits) / 2 ^ (8 * k))

/-- The instruction the decoder reads from the table's number `w` of `nbits` bits. -/
def decodeTableWord (nbits w : Nat) : Option Instr :=
  match decode (tableBytes nbits w) with
  | .ok (i, _) => some i
  | .error _ => none

/-- R82: the lengths an outbound write with this first byte can have. Under `EOT_RETX = FRAME` the first byte 0x04 begins both the
EOT frame of R141 and the bare EOT that R131, R138 and R139 still send (DEDUCED, log 11). -/
def outLengths (P : Params) (b : Byte) : List Nat :=
  if b = soh then [frameSmall + 5]
  else if b = stx then [frameLarge + 5]
  else if b = eot then
    match P.eotRetx with
    | .bare => [1]
    | .frame => [1, P.eotFrame.length]
  else []

end Sys2Proof
end

