-- ==== Sys2Proof/Machine/State.lean ====
section
/-! DEFINITION. The machine's state: every register of 10_state.md, per stream, the output ports of 43_session.md R160, the
parameters of 00_scope.md R9 and the port events the host has placed. -/

namespace Sys2Proof.Machine

/-- The `cause` of an outcome (60_exceptions.md R181, 43_session.md R168). -/
inductive Cause where
  | ackInactive
  | cancel
  | endOfStream
  deriving DecidableEq, Repr

/-- The kind of a session error (R181, R182). -/
inductive ErrorKind where
  | transportRead
  | transportWrite
  deriving DecidableEq, Repr

/-- A session's settlement value (10_state.md R33, 43_session.md R168). -/
inductive Result where
  | outcome (name : Bytes) (totalBytes writtenBytes : Nat) (cause : Cause)
  | error (kind : ErrorKind)
  deriving DecidableEq, Repr

/-- An event on an output port of a session (43_session.md R160). -/
inductive OutEvent where
  | readReq
  | write (s : Bytes)
  | progress (pct : Nat)
  | readRelease
  | result (r : Result)
  deriving DecidableEq, Repr

/-- The refusal of a port operation, with what it records (60_exceptions.md R181). -/
inductive PortRefusal where
  /-- `HEADER_OVERFLOW(len(meta))` (R114, R198). -/
  | headerOverflow (metaLen : Nat)
  /-- `STREAM_BUSY(stream)` (R198). -/
  | streamBusy (stream : Stream)
  /-- `CRC_RANGE(start, length, len(buf))` (R102). -/
  | crcRange (start length bufLen : Nat)
  /-- `CRC_RANGE(seed)` (R102). -/
  | crcSeed (seed : Nat)
  /-- `CHUNK_SIZE(len(chunk))` (R117). -/
  | chunkSize (chunkLen : Nat)
  deriving DecidableEq, Repr

/-- What the last port operation returned to whoever drove it. -/
inductive Reply where
  /-- No port operation has been driven yet. -/
  | none
  /-- A START that created its session. -/
  | accepted
  /-- CRC16's u16. -/
  | crc (value : U16)
  /-- SPLIT's list. -/
  | chunks (list : List Bytes)
  /-- The frame of BUILD_HEADER, BUILD_DATA or BUILD_EOT. -/
  | frame (bytes : Bytes)
  /-- A refusal code with its record (R181). -/
  | refused (code : PortRefusal)
  deriving DecidableEq, Repr

/-- The session registers of one stream (10_state.md §2) and the events it has emitted. -/
structure Session where
  /-- `NAME` (R29). -/
  name : Bytes
  /-- `TOTAL` (R28). -/
  total : Nat
  /-- `QUEUE` (R23). -/
  queue : List Bytes
  /-- `CURSOR` (R22): an unbounded natural (R8). -/
  cursor : Nat
  /-- `ACTIVE` (R24). -/
  active : Bool
  /-- `ARMED` (R25). -/
  armed : Bool
  /-- `FINISHED` (R26). -/
  finished : Bool
  /-- `WRITTEN` (R27). -/
  written : Nat
  /-- `PREV` (R30), `none` for NONE. -/
  prev : Option Byte
  /-- `READ_HELD` (R32). -/
  readHeld : Bool
  /-- `RESULT` (R33), `none` for NONE. -/
  result : Option Result
  /-- `OUTQ` (R34), oldest first. -/
  outq : List Bytes
  /-- The output events of this session so far, oldest first (R160, R190). -/
  emitted : List OutEvent
  deriving DecidableEq, Repr

/-- A port event the host has placed and the block has not yet taken. -/
inductive Input where
  /-- An `IN_CHUNK` in delivery on a stream: its bytes are taken one a step, in order, with no other event between two of them
  (00_scope.md R6, 43_session.md R165). -/
  | bytes (stream : Stream) (chunk : Bytes)
  /-- One port event or port operation, taken as one step (R6, R160), at the ports of a stream. -/
  | port (stream : Stream) (i : Instr)
  deriving DecidableEq, Repr

/-- Why the machine stops with a fault. -/
inductive Fault where
  /-- Raised by `step` when a pending port event is one of the five inbound bytes: those reach the block only inside a chunk (R84,
  R165). Safe: no host of the spec places such an event. -/
  | byteOutsideChunk
  deriving DecidableEq, Repr

/-- Why an instruction is refused. -/
inductive Refusal where
  /-- Raised by `exec` for an instruction that has no meaning yet. Safe. -/
  | notModelled (mnemonic : String)
  deriving DecidableEq, Repr

/-- The state of the machine. Sessions on different streams are separate (60_exceptions.md R195); a stream with no entry holds
no session (10_state.md R40). -/
structure State where
  /-- The parameters of this model instance (00_scope.md R9); no step writes them (R35). -/
  params : Params
  /-- The sessions by stream, streams strictly rising. -/
  sessions : List (Stream × Session)
  /-- The model's own: the stream at whose ports the event being taken arrived. -/
  sel : Stream
  /-- What the last port operation returned. -/
  reply : Reply
  /-- The model's own: the port events placed and not yet taken, oldest first. -/
  inputs : List Input
  deriving DecidableEq, Repr

/-- The machine before the first START: no stream holds a session (10_state.md R40, 70_reset_and_hazards.md R200), the parameters
stand at R9's defaults, and the host has placed nothing. -/
def State.reset : State :=
  { params := Params.default, sessions := [], sel := 0, reply := .none, inputs := [] }

end Sys2Proof.Machine
end

