-- ==== Sys2Proof/Machine/Ops.lean ====
section
/-! DEFINITION. The named operations over the state: the table of sessions, the output ports, `Send`, and settling a session
(teardown and abort), which is this block's way of taking an exception (60_exceptions.md R186, R188). There is no return from it
(R192). -/

namespace Sys2Proof.Machine

/-! The table of sessions, keyed by stream. -/

/-- The session of a stream, if it has one. -/
def lookupSession : List (Stream × Session) → Stream → Option Session
  | [], _ => none
  | (k', σ) :: l, k => if k = k' then some σ else lookupSession l k

/-- Change the session of a stream in place, if it has one. -/
def modifySession : List (Stream × Session) → Stream → (Session → Session) → List (Stream × Session)
  | [], _, _ => []
  | (k', σ) :: l, k, f => if k = k' then (k', f σ) :: l else (k', σ) :: modifySession l k f

/-- Give a stream a session, in place of the one it may have. Keeps the streams rising. -/
def insertSession : List (Stream × Session) → Stream → Session → List (Stream × Session)
  | [], k, σ => [(k, σ)]
  | (k', σ') :: l, k, σ =>
    if k < k' then (k, σ) :: (k', σ') :: l
    else if k = k' then (k, σ) :: l
    else (k', σ') :: insertSession l k σ

/-- The canonical form of the table: streams strictly rising. -/
def sessionsSorted : List (Stream × Session) → Bool
  | [] => true
  | (k, _) :: l => l.all (fun p => decide (k < p.1)) && sessionsSorted l

/-- The session of a stream in a state. -/
def State.session? (s : State) (k : Stream) : Option Session := lookupSession s.sessions k

/-- Act on the session at whose ports the current event arrived. With no session there, the event is discarded (log 9). -/
def State.onSession (s : State) (f : Session → Session) : State :=
  { s with sessions := modifySession s.sessions s.sel f }

/-- Put a new session on a stream. -/
def State.putSession (s : State) (k : Stream) (σ : Session) : State :=
  { s with sessions := insertSession s.sessions k σ }

/-- Return a value, or a refusal code, to whoever drove the port operation. -/
def State.answer (s : State) (r : Reply) : State := { s with reply := r }

/-- R198's first test: a session on the stream exists with FINISHED = 0. -/
def State.busy (s : State) (k : Stream) : Bool :=
  match s.session? k with
  | some σ => !σ.finished
  | none => false

/-! Output ports. -/

/-- `Emit(P, v)` (00_scope.md R13): one event on an output port. -/
def Session.emit (σ : Session) (e : OutEvent) : Session := { σ with emitted := σ.emitted ++ [e] }

/-- `Send(s)` (20_memory.md R55): one outbound write of the whole byte string, appended to OUTQ. -/
def Session.send (σ : Session) (s : Bytes) : Session :=
  { σ with outq := σ.outq ++ [s], emitted := σ.emitted ++ [.write s] }

/-- The bare EOT `[0x04]` (41_framer.md R119). -/
def bareEot : Bytes := [eot]

/-- `QUEUE[k]`. The rules only read it with `k < len(QUEUE)`. -/
def Session.frameAt (σ : Session) (k : Nat) : Bytes := σ.queue.getD k []

/-! Settling a session. -/

/-- The common closing path of teardown and abort (R186, R188): release the read resource, then the result. It runs only when
FINISHED = 0, so a session settles at most once (R187). -/
def Session.settle (σ : Session) (r : Result) : Session :=
  if σ.finished then σ
  else
    { σ with
      readHeld := false
      result := some r
      finished := true
      emitted := σ.emitted ++ [.readRelease, .result r] }

/-- `teardown(cause)` (R186): the outcome carries NAME, TOTAL and the WRITTEN reached so far. -/
def Session.teardown (σ : Session) (cause : Cause) : Session :=
  σ.settle (.outcome σ.name σ.total σ.written cause)

/-- `abort(kind)` (R188): an error and no outcome. -/
def Session.abort (σ : Session) (kind : ErrorKind) : Session := σ.settle (.error kind)

/-- The end of a chunk (43_session.md R163, R165): one more READ_REQ while the session runs. -/
def Session.requestRead (σ : Session) : Session := if σ.finished then σ else σ.emit .readReq

/-! Codes. -/

/-- The numeric code of a session error (R181). -/
def ErrorKind.code : ErrorKind → Nat
  | .transportRead => 1
  | .transportWrite => 2

/-- The numeric code of a refusal (R181). -/
def PortRefusal.code : PortRefusal → Nat
  | .headerOverflow _ => 16
  | .streamBusy _ => 17
  | .crcRange _ _ _ => 32
  | .crcSeed _ => 32
  | .chunkSize _ => 33

/-! Taking a port event. -/

/-- The state in which an event of a stream is taken: its ports are selected and the events still pending are those left. -/
def State.takeAt (s : State) (stream : Stream) (left : List Input) : State := { s with sel := stream, inputs := left }

end Sys2Proof.Machine
end

