-- ==== Sys2Proof/Machine/Operands.lean ====
section
/-! DEFINITION. Operand and field computations: the buffer primitives of 00_scope.md R13, the field assembly of 30_encoding.md R79 and
R80, the decimal text of 41_framer.md R112, and the operand checks of the port operations (R102, R114, R117, R198). -/

namespace Sys2Proof.Machine

/-- `ceil(a / b)` for b > 0 (R12). -/
def ceilDiv (a b : Nat) : Nat := (a + b - 1) / b

/-- `MemRead(buf, addr, n) = buf[addr .. addr+n)` (R13, R52). -/
def memRead (buf : Bytes) (addr n : Nat) : Bytes := (buf.drop addr).take n

/-- `MemWrite(buf, addr, len(v), v)` (R13, R52): the buffer with `buf[addr+i] <- v[i]`. -/
def memWrite (buf : Bytes) (addr : Nat) (v : Bytes) : Bytes :=
  buf.take addr ++ v ++ buf.drop (addr + v.length)

/-- `r[15:8]` (R12). -/
def hiByte (r : U16) : Byte := r.extractLsb' 8 8

/-- `r[7:0]` (R12). -/
def loByte (r : U16) : Byte := r.extractLsb' 0 8

/-- `seq = k & 0xFF` (R79). -/
def seqByte (k : Nat) : Byte := BitVec.ofNat 8 k

/-- `comp = 0xFF - seq` (R79). -/
def compByte (k : Nat) : Byte := 0xFF#8 - seqByte k

/-- The ASCII digit of `d` (R112). -/
def asciiDigit (d : Nat) : Byte := BitVec.ofNat 8 (0x30 + d)

/-- The decimal digits of `n`, most significant first, by at most `fuel` divisions. -/
def decDigits : Nat → Nat → Bytes
  | 0, _ => []
  | fuel + 1, n => if n < 10 then [asciiDigit n] else decDigits fuel (n / 10) ++ [asciiDigit (n % 10)]

/-- `DEC(n)` (R112). `n + 1` divisions are more than enough. -/
def decText (n : Nat) : Bytes := decDigits (n + 1) n

/-- The header's metadata `name ++ [0x00] ++ DEC(size) ++ [0x20]` (R113). -/
def headerMeta (name : Bytes) (size : Nat) : Bytes := name ++ [0x00#8] ++ decText size ++ [0x20#8]

/-- `check_crc_args` (R102). -/
def checkCrcArgs (buf : Bytes) (start length seed : Nat) : Option PortRefusal :=
  if buf.length < start + length then some (.crcRange start length buf.length)
  else if 0xFFFF < seed then some (.crcSeed seed)
  else none

/-- The header-fit check (R114, R198). -/
def checkHeader (name : Bytes) (size : Nat) : Option PortRefusal :=
  if frameSmall < name.length + (decText size).length + 2 then
    some (.headerOverflow (name.length + (decText size).length + 2))
  else none

/-- `check_chunk` (R117). -/
def checkChunk (chunk : Bytes) : Option PortRefusal :=
  if chunk.length = 0 ∨ chunkSize < chunk.length then some (.chunkSize chunk.length) else none

/-- `check_start` (R198): STREAM_BUSY first, then HEADER_OVERFLOW. -/
def checkStart (s : State) (stream : Stream) (name data : Bytes) : Option PortRefusal :=
  if s.busy stream then some (.streamBusy stream) else checkHeader name data.length

/-- The value of PROGRESS, `floor(100 * WRITTEN / TOTAL)` (43_session.md R167). TOTAL = 0 is unreachable (R137); the quotient is then
a free value of the port's range 0..100 (R160; log 6). -/
def percent (written total : Nat) : Nat :=
  if total = 0 then Config.progressOverZero written % 101 else 100 * written / total

end Sys2Proof.Machine
end

