-- ==== Sys2Proof/Machine/Checksum.lean ====
section
/-! DEFINITION. The checksum engine CE (40_checksum.md): CRC16/XMODEM, polynomial 0x1021, not reflected, seeded, with no final
exclusive-or. The bitwise form of R100 is the meaning; the byte-step form of R101 stands beside it. -/

namespace Sys2Proof.Machine

/-- One of the eight repetitions of R100's inner loop. -/
def crcBit (r : U16) : U16 := if r.getLsbD 15 then (r <<< 1) ^^^ crcPoly else r <<< 1

/-- R100's `repeat n times`. -/
def crcBits : Nat → U16 → U16
  | 0, r => r
  | n + 1, r => crcBits n (crcBit r)

/-- One iteration of R100's outer loop: the byte into the high byte, then eight bit steps. -/
def crcByte (r : U16) (v : Byte) : U16 := crcBits 8 (r ^^^ (v.setWidth 16 <<< 8))

/-- R100's outer loop over a byte string, from a register value. -/
def crcFold (r : U16) (bs : Bytes) : U16 := bs.foldl crcByte r

/-- `CRC16(buf, start, length, seed)` (R100) on operands that pass R102's check. -/
def crc16 (buf : Bytes) (start length : Nat) (seed : U16) : U16 := crcFold seed (memRead buf start length)

/-- `crc_step(r, v)` (R101): the byte into the high byte, then the 4-, 5- and 7-bit mixing steps. -/
def crcStep (r : U16) (v : Byte) : U16 :=
  let x := (hiByte r ^^^ v).setWidth 16
  let x := x ^^^ (x >>> 4)
  let r := (r <<< 8) ^^^ x
  let x := x <<< 5
  let r := r ^^^ x
  let x := x <<< 7
  r ^^^ x

/-- The CRC of a whole payload with seed 0, the way the framer uses the engine (R108). -/
def payloadCrc (payload : Bytes) : U16 := crc16 payload 0 payload.length 0

/-- The port operation CRC16 (R100), refused by CRC_RANGE (R102). -/
def execCrc16 (buf : Bytes) (start length seed : Nat) (s : State) : Host.Outcome State Fault Refusal :=
  match checkCrcArgs buf start length seed with
  | some code => .next (s.answer (.refused code))
  | none => .next (s.answer (.crc (crc16 buf start length (BitVec.ofNat 16 seed))))

end Sys2Proof.Machine
end

