-- ==== Sys2Proof/Machine/Framer.lean ====
section
/-! DEFINITION. The packet framer FR (41_framer.md): the file splitter, the header, data and EOT frames, and their port operations.
Frame format: 30_encoding.md R73 to R78. -/

namespace Sys2Proof.Machine

/-- `SPLIT(data)` (R110): `ceil(T / 1024)` chunks, never padded. -/
def splitData (data : Bytes) : List Bytes :=
  (List.range (ceilDiv data.length chunkSize)).map fun i =>
    memRead data (i * chunkSize) (min (i * chunkSize + chunkSize) data.length - i * chunkSize)

/-- `FS(chunk)` (R111). -/
def frameSize (chunk : Bytes) : Nat := if chunk.length ≤ frameSmall then frameSmall else frameLarge

/-- The marker of a data frame (R116). -/
def dataMarker (chunk : Bytes) : Byte := if frameSize chunk = frameLarge then stx else soh

/-- The big-endian CRC trailer of a payload (20_memory.md R53, R80). -/
def crcTrailer (payload : Bytes) : Bytes := [hiByte (payloadCrc payload), loByte (payloadCrc payload)]

/-- Format F (R73): marker, sequence, complement, payload, trailer. -/
def assembleFrame (marker : Byte) (k : Nat) (payload : Bytes) : Bytes :=
  [marker, seqByte k, compByte k] ++ payload ++ crcTrailer payload

/-- The header payload (R74, R113): 128 zero bytes overwritten with the metadata. -/
def headerPayload (name : Bytes) (size : Nat) : Bytes :=
  memWrite (List.replicate frameSmall padHeader) 0 (headerMeta name size)

/-- BUILD_HEADER's frame (R113), for metadata that fits. -/
def headerFrame (name : Bytes) (size : Nat) : Bytes := assembleFrame soh 0 (headerPayload name size)

/-- The payload of a data frame (R75, R76, R115): the chunk padded with 0x1A. -/
def dataPayload (chunk : Bytes) : Bytes := chunk ++ List.replicate (frameSize chunk - chunk.length) padData

/-- BUILD_DATA's frame (R115), for a chunk that passes R117's check. The final bit changes nothing (D33). -/
def dataFrame (chunk : Bytes) (seq : Nat) (_isFinal : Bool) : Bytes :=
  assembleFrame (dataMarker chunk) seq (dataPayload chunk)

/-- The port operation SPLIT (R110). -/
def execSplit (data : Bytes) (s : State) : Host.Outcome State Fault Refusal :=
  .next (s.answer (.chunks (splitData data)))

/-- The port operation BUILD_HEADER (R113), refused by HEADER_OVERFLOW (R114). -/
def execBuildHeader (name : Bytes) (size : Nat) (s : State) : Host.Outcome State Fault Refusal :=
  match checkHeader name size with
  | some code => .next (s.answer (.refused code))
  | none => .next (s.answer (.frame (headerFrame name size)))

/-- The port operation BUILD_DATA (R115), refused by CHUNK_SIZE (R117). -/
def execBuildData (chunk : Bytes) (seq : Nat) (isFinal : Bool) (s : State) : Host.Outcome State Fault Refusal :=
  match checkChunk chunk with
  | some code => .next (s.answer (.refused code))
  | none => .next (s.answer (.frame (dataFrame chunk seq isFinal)))

/-- The port operation BUILD_EOT (R118): the fixed parameter EOT_FRAME. -/
def execBuildEot (s : State) : Host.Outcome State Fault Refusal :=
  .next (s.answer (.frame s.params.eotFrame))

end Sys2Proof.Machine
end

