-- ==== Sys2Proof/Machine/Flags.lean ====
section
/-! DEFINITION. The flags ACTIVE and ARMED (10_state.md R24, R25) and the named machine states, which are a function of the registers
(R31). FINISHED and READ_HELD change only in `Session.settle`. The block has no condition codes (R37). -/

namespace Sys2Proof.Machine

/-- R132: a `C` that sends a queue packet sets both flags. -/
def Session.arm (σ : Session) : Session := { σ with armed := true, active := true }

/-- R131, R138, R139: the EOT phase begins and both flags are cleared. -/
def Session.disarm (σ : Session) : Session := { σ with armed := false, active := false }

/-- The state names of YMWS (R31). `closing` is the interior of the atomic teardown step and never returned. -/
inductive NamedState where
  | idle
  | started
  | transmitting
  | awaitingFinalAck
  | closing
  | done
  deriving DecidableEq, Repr

/-- `state()` (R31), the first matching line taken; `none` for a register combination outside its lines. -/
def Session.namedState (σ : Session) : Option NamedState :=
  if σ.finished then some .done
  else if !σ.active && σ.cursor == 0 then some .idle
  else if !σ.active && σ.cursor == σ.queue.length then some .awaitingFinalAck
  else if σ.active && σ.armed && σ.cursor == 0 then some .started
  else if σ.active && σ.armed && decide (1 ≤ σ.cursor) then some .transmitting
  else none

end Sys2Proof.Machine
end

