-- ==== Sys2Proof/Machine/Transmitter.lean ====
section
/-! DEFINITION. The transmitter TX (42_transmitter.md): its reaction to each inbound control byte. `L` is `len(QUEUE)`. -/

namespace Sys2Proof.Machine

/-- The frame of R130's per-byte step around a rule: nothing once FINISHED = 1 (R144), and PREV written after the rule, also by a
byte that settles the session. -/
def Session.processByte (b : Byte) (rule : Session → Session) (σ : Session) : Session :=
  if σ.finished then σ else { rule σ with prev := some b }

/-- `C`: R131 at the end of the queue, else R133 for a duplicate, else R132. -/
def ruleC (σ : Session) : Session :=
  if σ.queue.length ≤ σ.cursor then (σ.send bareEot).disarm
  else if σ.prev = some ctlC then σ
  else (σ.send (σ.frameAt σ.cursor)).arm

/-- R137 with its continuation R138: the ACK of data packet CURSOR. -/
def ackData (σ : Session) : Session :=
  let w := min (σ.cursor * chunkSize) σ.total
  let σ := ({ σ with written := w, cursor := σ.cursor + 1 } : Session).emit (.progress (percent w σ.total))
  if σ.cursor < σ.queue.length then σ.send (σ.frameAt σ.cursor)
  else σ.disarm.send bareEot

/-- R134's dispatch of an ACK to R135, R136, R137, R139 or R140, the first condition that holds. -/
def ruleAck (σ : Session) : Session :=
  if σ.active = false then σ.teardown .ackInactive
  else if σ.armed = true ∧ σ.cursor = 0 then { σ with cursor := 1 }
  else if σ.armed = true ∧ 0 < σ.cursor ∧ σ.cursor < σ.queue.length then ackData σ
  else if σ.armed = true ∧ σ.cursor = σ.queue.length then σ.disarm.send bareEot
  else σ

/-- `NAK` (R141): the packet at the cursor again, or an EOT by `EOT_RETX`. No flag changes. -/
def ruleNak (P : Params) (σ : Session) : Session :=
  if σ.cursor < σ.queue.length then σ.send (σ.frameAt σ.cursor)
  else
    match P.eotRetx with
    | .bare => σ.send bareEot
    | .frame => σ.send P.eotFrame

/-- `CA` (R142): tear down at once. -/
def ruleCa (σ : Session) : Session := σ.teardown .cancel

/-- R130's dispatch of a byte to its rule; a byte of no meaning does nothing (R143). -/
def ruleOf (P : Params) (b : Byte) : Session → Session :=
  if b = ctlC then ruleC
  else if b = ctlAck then ruleAck
  else if b = ctlNak then ruleNak P
  else if b = ctlCa then ruleCa
  else id

/-- `step_byte(b)` (R130). -/
def stepByte (P : Params) (σ : Session) (b : Byte) : Session := σ.processByte b (ruleOf P b)

/-- The inbound byte `C`. -/
def execC (s : State) : Host.Outcome State Fault Refusal :=
  .next (s.onSession (Session.processByte ctlC ruleC))

/-- The inbound byte `ACK`. -/
def execAck (s : State) : Host.Outcome State Fault Refusal :=
  .next (s.onSession (Session.processByte ctlAck ruleAck))

/-- The inbound byte `NAK`. -/
def execNak (s : State) : Host.Outcome State Fault Refusal :=
  .next (s.onSession (Session.processByte ctlNak (ruleNak s.params)))

/-- The inbound byte `CA`. -/
def execCa (s : State) : Host.Outcome State Fault Refusal :=
  .next (s.onSession (Session.processByte ctlCa ruleCa))

/-- An inbound byte of no meaning (R143): only PREV changes. -/
def execOther (b : Byte) (s : State) : Host.Outcome State Fault Refusal :=
  .next (s.onSession (Session.processByte b id))

end Sys2Proof.Machine
end

