-- ==== Sys2Proof/Machine/Session.lean ====
section
/-! DEFINITION. The session's port events (43_session.md): START, the read loop, end of stream, and the transport failures
(60_exceptions.md R182). -/

namespace Sys2Proof.Machine

/-- The packet list of a session (10_state.md R23): the header, then data packet k for k = 1..N. -/
def buildQueue (name data : Bytes) : List Bytes :=
  let chunks := splitData data
  headerFrame name data.length ::
    (List.range chunks.length).map fun j => dataFrame (chunks.getD j []) (j + 1) (j + 1 == chunks.length)

/-- The session START creates (R162, R40): every register at its reset value, and the first READ_REQ emitted (R163). -/
def newSession (name data : Bytes) : Session :=
  { name := name
    total := data.length
    queue := buildQueue name data
    cursor := 0
    active := false
    armed := false
    finished := false
    written := 0
    prev := none
    readHeld := true
    result := none
    outq := []
    emitted := [.readReq] }

/-- START (R162). A refusal of R198 changes nothing and returns its code. There is no other: MAX_FILE bounds no START (D5, log 5). -/
def execStart (stream : Stream) (name data : Bytes) (s : State) : Host.Outcome State Fault Refusal :=
  match checkStart s stream name data with
  | some code => .next (s.answer (.refused code))
  | none => .next ((s.putSession stream (newSession name data)).answer .accepted)

/-- A running session on the selected stream: the one it has, else the one START creates for an empty name and file. Inbound bytes
are only read by a running session (R163); `State.withFetchWord` stands for the START that a byte needs (log 12). -/
def State.withRunningSession (s : State) : State :=
  if s.busy s.sel then s else s.putSession s.sel (newSession [] [])

/-- R165 on one session: `step_byte` for each byte in order, then READ_REQ while FINISHED = 0. -/
def runChunk (P : Params) (chunk : Bytes) (σ : Session) : Session := (chunk.foldl (stepByte P) σ).requestRead

/-- IN_CHUNK (R165). After settle it is discarded (R164), since every byte is (R144) and no READ_REQ follows. -/
def execInChunk (chunk : Bytes) (s : State) : Host.Outcome State Fault Refusal :=
  .next (s.onSession (runChunk s.params chunk))

/-- IN_EOS (R166). After settle it is discarded (R164). -/
def execInEos (s : State) : Host.Outcome State Fault Refusal :=
  .next (s.onSession fun σ => σ.teardown .endOfStream)

/-- READ_FAIL (R182). After settle it is discarded (R164). -/
def execReadFail (s : State) : Host.Outcome State Fault Refusal :=
  .next (s.onSession fun σ => σ.abort .transportRead)

/-- WRITE_FAIL (R182). After settle it has no effect (R197). -/
def execWriteFail (s : State) : Host.Outcome State Fault Refusal :=
  .next (s.onSession fun σ => σ.abort .transportWrite)

/-- WRITE_DONE has no effect (R172). -/
def execWriteDone (s : State) : Host.Outcome State Fault Refusal := .next s

end Sys2Proof.Machine
end

