-- ==== Sys2Proof/Machine/Dispatch.lean ====
section
/-! DEFINITION. The dispatch of every instruction to its meaning. -/

namespace Sys2Proof.Machine

def exec (i : Instr) (s : State) : Host.Outcome State Fault Refusal :=
  match i with
  | .c => Sys2Proof.Machine.execC s
  | .ack => Sys2Proof.Machine.execAck s
  | .nak => Sys2Proof.Machine.execNak s
  | .ca => Sys2Proof.Machine.execCa s
  | .other b => Sys2Proof.Machine.execOther b s
  | .start stream name data => Sys2Proof.Machine.execStart stream name data s
  | .crc16 buf start length seed => Sys2Proof.Machine.execCrc16 buf start length seed s
  | .split data => Sys2Proof.Machine.execSplit data s
  | .buildHeader name size => Sys2Proof.Machine.execBuildHeader name size s
  | .buildData chunk seq isFinal => Sys2Proof.Machine.execBuildData chunk seq isFinal s
  | .buildEot => Sys2Proof.Machine.execBuildEot s
  | .inChunk chunk => Sys2Proof.Machine.execInChunk chunk s
  | .inEos => Sys2Proof.Machine.execInEos s
  | .readFail => Sys2Proof.Machine.execReadFail s
  | .writeFail => Sys2Proof.Machine.execWriteFail s
  | .writeDone => Sys2Proof.Machine.execWriteDone s

end Sys2Proof.Machine
end

