-- ==== Sys2Proof/Machine/Step.lean ====
section
/-! DEFINITION. One step of the machine (00_scope.md R6): the next inbound byte of the chunk in delivery, or one port event. -/

namespace Sys2Proof.Machine

/-- One step. With nothing pending the block waits and every register survives (60_exceptions.md R199). A chunk in delivery stays at
the head until its bytes are used up, so no other event comes between two of them (43_session.md R165); the used-up chunk is the empty
IN_CHUNK, whose only effect is the READ_REQ that follows a chunk (R163, D23). -/
def step (s : State) : Host.Outcome State Fault Refusal :=
  match s.inputs with
  | [] => .next s
  | .bytes stream chunk :: rest =>
    match decode chunk with
    | .ok (i, left) => exec i (s.takeAt stream (.bytes stream left :: rest))
    | .error .noByte => exec (.inChunk []) (s.takeAt stream rest)
  | .port stream i :: rest =>
    if i.isPort then exec i (s.takeAt stream rest) else .fault .byteOutsideChunk

/-- The state with the instruction of the table's number `w` as the next byte of a chunk in delivery at the selected stream. An
inbound byte is only read by a running session, so the stream is given one if it has none (log 12). -/
def State.withFetchWord (s : State) (nbits w : Nat) : State :=
  { s.withRunningSession with inputs := .bytes s.sel (tableBytes nbits w) :: s.inputs }

end Sys2Proof.Machine
end

