-- ==== Sys2Proof/Machine/Program.lean ====
section
/-! DEFINITION. The spec's notation for programs (30_encoding.md R85): a START line followed by the inbound bytes, with chunk
boundaries, end of stream and transport failures. There are no pseudo-instructions (R86). -/

namespace Sys2Proof.Machine

/-- One word of a program line (R85). -/
inductive ProgramWord where
  /-- A byte: `C`, `ACK`, `NAK`, `CA` or `0xNN`. -/
  | byte (b : Byte)
  /-- A chunk boundary `|`. -/
  | cut
  /-- `EOS`. -/
  | eos
  /-- `WFAIL`. -/
  | wfail
  /-- `RFAIL`. -/
  | rfail
  deriving DecidableEq, Repr

/-- A program: its START line and its inbound words. -/
structure Program where
  stream : Stream
  name : Bytes
  data : Bytes
  words : List ProgramWord
  deriving DecidableEq, Repr

/-- The pending IN_CHUNK of the bytes gathered since the last boundary; none if there are none. -/
def closeChunk (stream : Stream) (gathered : Bytes) : List Input :=
  if gathered.isEmpty then [] else [.bytes stream gathered]

/-- The port events of a program's words, `gathered` being the bytes of the chunk begun. -/
def wordInputs (stream : Stream) : Bytes → List ProgramWord → List Input
  | gathered, [] => closeChunk stream gathered
  | gathered, .byte b :: ws => wordInputs stream (gathered ++ [b]) ws
  | gathered, .cut :: ws => closeChunk stream gathered ++ wordInputs stream [] ws
  | gathered, .eos :: ws => closeChunk stream gathered ++ .port stream .inEos :: wordInputs stream [] ws
  | gathered, .wfail :: ws => closeChunk stream gathered ++ .port stream .writeFail :: wordInputs stream [] ws
  | gathered, .rfail :: ws => closeChunk stream gathered ++ .port stream .readFail :: wordInputs stream [] ws

/-- The port events of a program, START first. -/
def Program.inputs (p : Program) : List Input :=
  .port p.stream (.start p.stream p.name p.data) :: wordInputs p.stream [] p.words

/-- The encoding of a program: its inbound bytes (R85). -/
def Program.encoding (p : Program) : Bytes :=
  p.words.filterMap fun w => match w with
    | .byte b => some b
    | .cut => none
    | .eos => none
    | .wfail => none
    | .rfail => none

/-- The name of an outbound write in program notation (R85). -/
inductive WriteName where
  /-- `H`, the header frame. -/
  | h
  /-- `D<k>`, data frame k. -/
  | d (k : Nat)
  /-- `EOT`, the bare EOT. -/
  | eot
  /-- `EOTF`, the EOT frame. -/
  | eotf
  deriving DecidableEq, Repr

/-- The byte string a write's name stands for in a session. -/
def WriteName.bytes (P : Params) (σ : Session) : WriteName → Bytes
  | .h => σ.frameAt 0
  | .d k => σ.frameAt k
  | .eot => bareEot
  | .eotf => P.eotFrame

/-- The host places a program after the events already pending. -/
def State.withProgram (s : State) (p : Program) : State := { s with inputs := s.inputs ++ p.inputs }

end Sys2Proof.Machine
end

