-- ==== Sys2Proof/Safety.lean ====
section
/-! DEFINITION. The terms claims are stated in: what a step leaves alone, the views of a session's output, how a receiver reads a
header, and the invariants of 10_state.md R36. -/

namespace Sys2Proof.Machine

/-! What an event leaves alone. -/

/-- From `s` to `t` only the session at the selected ports may differ. -/
def OnlySelected (s t : State) : Prop :=
  t.params = s.params ∧ t.sel = s.sel ∧ t.reply = s.reply ∧ t.inputs = s.inputs ∧
    ∀ k, k ≠ s.sel → t.session? k = s.session? k

/-- The stream a START names. -/
def startStream? : Instr → Option Stream
  | .start stream _ _ => some stream
  | .c => none
  | .ack => none
  | .nak => none
  | .ca => none
  | .other _ => none
  | .crc16 _ _ _ _ => none
  | .split _ => none
  | .buildHeader _ _ => none
  | .buildData _ _ _ => none
  | .buildEot => none
  | .inChunk _ => none
  | .inEos => none
  | .readFail => none
  | .writeFail => none
  | .writeDone => none

/-! Views of a session's output events. -/

/-- The bytes of a WRITE event. -/
def OutEvent.write? : OutEvent → Option Bytes
  | .write s => some s
  | .readReq => none
  | .progress _ => none
  | .readRelease => none
  | .result _ => none

/-- The value of a PROGRESS event. -/
def OutEvent.progress? : OutEvent → Option Nat
  | .progress p => some p
  | .readReq => none
  | .write _ => none
  | .readRelease => none
  | .result _ => none

/-- The settling events READ_RELEASE and RESULT. -/
def OutEvent.isSettling : OutEvent → Bool
  | .readRelease => true
  | .result _ => true
  | .readReq => false
  | .write _ => false
  | .progress _ => false

/-- An event other than READ_REQ. -/
def OutEvent.notReadReq : OutEvent → Bool
  | .readReq => false
  | .write _ => true
  | .progress _ => true
  | .readRelease => true
  | .result _ => true

/-- The PROGRESS values so far, oldest first. -/
def Session.progressValues (σ : Session) : List Nat := σ.emitted.filterMap OutEvent.progress?

/-- The observation of a run (43_session.md R171): the writes, the PROGRESS values and the result. -/
def Session.observation (σ : Session) : List Bytes × List Nat × Option Result := (σ.outq, σ.progressValues, σ.result)

/-- A READ_REQ is outstanding between two chunks of a running session (R163). -/
def Session.readOutstanding (σ : Session) : Bool := !σ.finished

/-! How a receiver reads a header payload (41_framer.md R120). -/

/-- The bytes before the first 0x00. -/
def headerNameOf (payload : Bytes) : Bytes := payload.takeWhile (fun b => b != 0x00#8)

/-- The digits after the first 0x00, up to the first 0x20. -/
def headerDigitsOf (payload : Bytes) : Bytes :=
  ((payload.dropWhile (fun b => b != 0x00#8)).drop 1).takeWhile (fun b => b != 0x20#8)

/-- The decimal value of a string of ASCII digits. -/
def decimalValue (digits : Bytes) : Nat := digits.foldl (fun n d => 10 * n + (d.toNat - 0x30)) 0

/-! Invariants. -/

/-- A packet of the queue at index `k` (30_encoding.md R73): a small or a large frame with its marker, sequence, complement and
trailer. -/
def IsPacket (k : Nat) (f : Bytes) : Prop :=
  ∃ marker payload, f = assembleFrame marker k payload ∧
    ((marker = soh ∧ payload.length = frameSmall) ∨ (marker = stx ∧ payload.length = frameLarge))

/-- R36 for one session, with the facts of R22 to R34 that tie its registers to its output. -/
structure Session.Inv (P : Params) (σ : Session) : Prop where
  /-- R22: `CURSOR <= len(QUEUE)`. -/
  cursorLe : σ.cursor ≤ σ.queue.length
  /-- R36 item 2: `ARMED = ACTIVE`. -/
  flagsAgree : σ.armed = σ.active
  /-- R36 item 3. -/
  inactiveEnds : σ.active = false → σ.cursor = 0 ∨ σ.cursor = σ.queue.length
  /-- R139: armed at the end of the queue only for a 0-byte file. -/
  activeAtEnd : σ.active = true → σ.cursor = σ.queue.length → σ.queue.length = 1
  /-- R27, R137: WRITTEN is what the acknowledged data packets hold. -/
  writtenEq : σ.written = min ((σ.cursor - 1) * chunkSize) σ.total
  /-- R36 item 5: FINISHED if and only if RESULT is not NONE. -/
  finishedResult : σ.finished = σ.result.isSome
  /-- R36 item 5: FINISHED if and only if READ_HELD = 0. -/
  finishedHeld : σ.readHeld = !σ.finished
  /-- R23: `len(QUEUE) = 1 + ceil(TOTAL / 1024)`. -/
  queueLength : σ.queue.length = 1 + ceilDiv σ.total chunkSize
  /-- R23: QUEUE[0] is the header of NAME and TOTAL. -/
  queueHeader : σ.queue.head? = some (headerFrame σ.name σ.total)
  /-- R38: every entry is a packet of 133 or 1029 bytes that carries its index. -/
  queuePackets : ∀ k f, σ.queue[k]? = some f → IsPacket k f
  /-- R55, R119: every write is a packet of the queue, the bare EOT, or the EOT frame when EOT_RETX = FRAME. -/
  writesKnown : ∀ f ∈ σ.outq, f ∈ σ.queue ∨ f = bareEot ∨ (P.eotRetx = .frame ∧ f = P.eotFrame)
  /-- R34: OUTQ records the writes, in order. -/
  outqWrites : σ.outq = σ.emitted.filterMap OutEvent.write?
  /-- R167: one PROGRESS for each acknowledged data packet. -/
  progressEach : σ.progressValues =
    (List.range (σ.cursor - 1)).map fun j => percent (min ((j + 1) * chunkSize) σ.total) σ.total
  /-- R187, R208: nothing settles before FINISHED; READ_RELEASE then RESULT, once, and nothing after. -/
  settledOnce : ∃ before, before.all (fun e => !e.isSettling) = true ∧
    σ.emitted = before ++ (match σ.result with
      | none => []
      | some r => [.readRelease, .result r])
  /-- R168: an outcome carries NAME, TOTAL and WRITTEN. -/
  outcomeFields : ∀ n t w c, σ.result = some (.outcome n t w c) → n = σ.name ∧ t = σ.total ∧ w = σ.written

/-- The invariant of the machine: the table of sessions is in canonical form and every session meets R36. -/
def State.Inv (s : State) : Prop :=
  sessionsSorted s.sessions = true ∧ ∀ k σ, s.session? k = some σ → σ.Inv s.params

end Sys2Proof.Machine
end

