-- ==== Sys2Proof/Certificates/Slice0/Obligations.lean ====
section
/-! DEFINITION. The statements for the provers, each from the rules of spec/ its docstring names. In the statements about an inbound
byte or a stream event, `σ` is the session at whose ports the event arrives, and the registers listed after `with` are all that change. -/

open Sys2Proof Sys2Proof.Machine

/-! Encoding and the step. -/

/-- A few words of the table of R71, written out from it: the four control bytes and three bytes of no meaning. -/
def Obligations.ControlWordsDecode : Prop :=
  decodeTableWord 8 0b01000011 = some .c ∧ decodeTableWord 8 0b00000110 = some .ack ∧
  decodeTableWord 8 0b00010101 = some .nak ∧ decodeTableWord 8 0b00011000 = some .ca ∧
  decodeTableWord 8 0x00 = some (.other 0x00#8) ∧ decodeTableWord 8 0x04 = some (.other 0x04#8) ∧
  decodeTableWord 8 0xFF = some (.other 0xFF#8)

/-- R70, R71: every inbound instruction is one byte, matched on all 8 bits; the other 252 values are OTHER. -/
def Obligations.EveryByteDecodesByTheTable : Prop :=
  ∀ (b : Byte) (rest : Bytes), ∃ i, decode (b :: rest) = .ok (i, rest) ∧
    (b = 0x43#8 → i = .c) ∧ (b = 0x06#8 → i = .ack) ∧ (b = 0x15#8 → i = .nak) ∧ (b = 0x18#8 → i = .ca) ∧
    (b ≠ 0x43#8 → b ≠ 0x06#8 → b ≠ 0x15#8 → b ≠ 0x18#8 → i = .other b)

/-- Decode and encode agree: every well-formed inbound instruction is read back from its bytes, whatever follows; every byte is the
encoding of the one well-formed instruction it decodes to; a port operation has no bytes (R84). -/
def Obligations.DecodeEncodeAgree : Prop :=
  (∀ (i : Instr) (rest : Bytes), i.wellFormed = true → i.isPort = false → decode (encode i ++ rest) = .ok (i, rest)) ∧
  (∀ (b : Byte) (i : Instr), (i.wellFormed = true ∧ i.isPort = false ∧ encode i = [b]) ↔ decode [b] = .ok (i, [])) ∧
  (∀ i : Instr, encode i = [] ↔ i.isPort = true)

/-- A step runs the decoded instruction: when the bytes of the chunk in delivery decode to a well-formed `i`, the step is exec of `i`
in the state with that stream's ports selected and the byte used up (R6, R165). -/
def Obligations.StepRunsDecodedByte : Prop :=
  ∀ (s : State) (stream : Stream) (chunk left : Bytes) (rest : List Input) (i : Instr),
    s.inputs = .bytes stream chunk :: rest → decode chunk = .ok (i, left) → i.wellFormed = true →
    step s = exec i { s with sel := stream, inputs := .bytes stream left :: rest }

/-- A step takes a pending port event as exec of that operation at the stream's ports (R6, R160); an inbound byte placed outside a
chunk is the model's own fault (log 2). -/
def Obligations.StepTakesPortEvent : Prop :=
  ∀ (s : State) (stream : Stream) (rest : List Input) (i : Instr), s.inputs = .port stream i :: rest →
    (i.isPort = true → step s = exec i { s with sel := stream, inputs := rest }) ∧
    (i.isPort = false → step s = .fault .byteOutsideChunk)

/-- R199: with nothing pending the block waits and the whole state survives unchanged; a chunk whose bytes are used up is the empty
IN_CHUNK. -/
def Obligations.StepWaitsWithNothingPending : Prop :=
  (∀ s : State, s.inputs = [] → step s = .next s) ∧
  (∀ (s : State) (stream : Stream) (rest : List Input), s.inputs = .bytes stream [] :: rest →
    step s = exec (.inChunk []) { s with sel := stream, inputs := rest })

/-! Reset and START. -/

/-- R200, R40: before the first START no stream holds a session; nothing is pending and the parameters are R9's defaults. -/
def Obligations.ResetHoldsNoSession : Prop :=
  (∀ k, State.reset.session? k = none) ∧ State.reset.params.eotRetx = .bare ∧ State.reset.params.maxFile = none ∧
  State.reset.params.eotFrame.head? = some 0x04#8 ∧ step State.reset = .next State.reset

/-- R162, R40, R201: a START that passes its checks leaves every register at its reset value, emits one READ_REQ, writes nothing and
touches no other stream; the named state is Idle. A START that R198 refuses creates nothing. -/
def Obligations.StartCreatesSession : Prop :=
  ∀ (s : State) (stream : Stream) (name data : Bytes),
    (s.busy stream = false → name.length + (decText data.length).length + 2 ≤ 128 →
      ∃ t σ, exec (.start stream name data) s = .next t ∧ t.session? stream = some σ ∧
        σ =
          { name := name
            total := data.length
            queue := headerFrame name data.length :: (List.range (splitData data).length).map fun j =>
              dataFrame ((splitData data).getD j []) (j + 1) (j + 1 == (splitData data).length)
            cursor := 0
            active := false
            armed := false
            finished := false
            written := 0
            prev := none
            readHeld := true
            result := none
            outq := []
            emitted := [.readReq] } ∧
        σ.namedState = some .idle ∧
        (∀ k, k ≠ stream → t.session? k = s.session? k) ∧ t.params = s.params ∧ t.inputs = s.inputs ∧ t.sel = s.sel) ∧
    (s.busy stream = true ∨ 128 < name.length + (decText data.length).length + 2 →
      ∃ code, exec (.start stream name data) s = .next { s with reply := .refused code })

/-- R23: after START the queue has 1 + ceil(TOTAL/1024) entries; entry 0 is the frame BUILD_HEADER returns for NAME and TOTAL, and
entry k the frame BUILD_DATA returns for chunk k-1 of SPLIT's list, sequence k, final bit k = N; no entry begins as an EOT does. No
later event changes a queue, but for a new START on its stream. -/
def Obligations.QueueHoldsBuiltFrames : Prop :=
  (∀ (s u : State) (stream : Stream) (name data : Bytes),
    s.busy stream = false → name.length + (decText data.length).length + 2 ≤ 128 →
    ∃ t σ chunks, exec (.start stream name data) s = .next t ∧ t.session? stream = some σ ∧
      exec (.split data) u = .next { u with reply := .chunks chunks } ∧
      chunks.length = (data.length + 1023) / 1024 ∧ σ.queue.length = 1 + chunks.length ∧
      (∃ h, σ.queue[0]? = some h ∧ exec (.buildHeader name data.length) u = .next { u with reply := .frame h }) ∧
      (∀ k c, 1 ≤ k → chunks[k - 1]? = some c → ∃ f, σ.queue[k]? = some f ∧
        exec (.buildData c k (decide (k = chunks.length))) u = .next { u with reply := .frame f }) ∧
      (∀ f ∈ σ.queue, f.head? ≠ some 0x04#8)) ∧
  (∀ (s t : State) (i : Instr) (k : Stream) (σ : Session), exec i s = .next t → startStream? i ≠ some k →
    s.session? k = some σ → ∃ τ, t.session? k = some τ ∧ τ.queue = σ.queue)

/-- R198: START on a stream whose session has not settled is refused with STREAM_BUSY, else START whose metadata does not fit with
HEADER_OVERFLOW; a refused START creates no session and disturbs nothing. -/
def Obligations.StartRefusals : Prop :=
  ∀ (s : State) (stream : Stream) (name data : Bytes),
    (∀ σ, s.session? stream = some σ → σ.finished = false →
      exec (.start stream name data) s = .next { s with reply := .refused (.streamBusy stream) }) ∧
    ((∀ σ, s.session? stream = some σ → σ.finished = true) → 128 < name.length + (decText data.length).length + 2 →
      exec (.start stream name data) s =
        .next { s with reply := .refused (.headerOverflow (name.length + (decText data.length).length + 2)) })

/-- MAX_FILE bounds nothing in the block. A START that R198 accepts creates its session for a file over a finite MAX_FILE as for any
other (R162, R198); that no instruction of any kind reads the parameter is the model's reading of R9 (log 5). -/
def Obligations.MaxFileBoundsNothing : Prop :=
  (∀ (s : State) (stream : Stream) (name data : Bytes) (m : Nat),
    s.busy stream = false → name.length + (decText data.length).length + 2 ≤ 128 →
    s.params.maxFile = some m → m < data.length →
    ∃ t, exec (.start stream name data) s = .next t ∧ t.session? stream = some (newSession name data) ∧ t.params = s.params) ∧
  (∀ (s : State) (i : Instr) (m : Option Nat), ∃ t, exec i s = .next t ∧
    exec i { s with params := { s.params with maxFile := m } } = .next { t with params := { s.params with maxFile := m } })

/-! The checksum engine. -/

/-- R100 and R102: in range, CRC16 returns the bitwise CRC of `buf[start .. start+length)` from the seed, and nothing else changes;
else it is refused with CRC_RANGE, the range tested before the seed. -/
def Obligations.Crc16BitwiseResult : Prop :=
  ∀ (s : State) (buf : Bytes) (start length seed : Nat),
    (start + length ≤ buf.length → seed ≤ 0xFFFF →
      exec (.crc16 buf start length seed) s = .next { s with reply := .crc (((buf.drop start).take length).foldl
        (fun (r : U16) (v : Byte) => (fun r : U16 => if r.getLsbD 15 then (r <<< 1) ^^^ 0x1021#16 else r <<< 1)^[8]
          (r ^^^ (v.setWidth 16 <<< 8 : U16))) (BitVec.ofNat 16 seed)) }) ∧
    (buf.length < start + length →
      exec (.crc16 buf start length seed) s = .next { s with reply := .refused (.crcRange start length buf.length) }) ∧
    (start + length ≤ buf.length → 0xFFFF < seed →
      exec (.crc16 buf start length seed) s = .next { s with reply := .refused (.crcSeed seed) })

/-- R101: the byte step equals one iteration of R100's outer loop for every register and byte, so CRC16 is the fold of `crc_step`. -/
def Obligations.CrcByteStepFormAgrees : Prop :=
  (∀ (r : U16) (v : Byte), crcByte r v = crcStep r v) ∧
  (∀ (s : State) (buf : Bytes) (start length seed : Nat), start + length ≤ buf.length → seed ≤ 0xFFFF →
    exec (.crc16 buf start length seed) s =
      .next { s with reply := .crc (((buf.drop start).take length).foldl crcStep (BitVec.ofNat 16 seed)) })

/-- R103, R104: the CRC of an empty range is the seed, and a range may be checksummed in segments. -/
def Obligations.CrcSegmentation : Prop :=
  (∀ (buf : Bytes) (start : Nat) (seed : U16), crc16 buf start 0 seed = seed) ∧
  (∀ (buf : Bytes) (start m n : Nat) (seed : U16), start + m + n ≤ buf.length →
    crc16 buf start (m + n) seed = crc16 buf (start + m) n (crc16 buf start m seed))

/-- R106: the CRC of a string followed by its own big-endian CRC is 0. -/
def Obligations.CrcResidueIsZero : Prop :=
  ∀ d : Bytes, crc16 (d ++ [hiByte (crc16 d 0 d.length 0), loByte (crc16 d 0 d.length 0)]) 0 (d.length + 2) 0 = 0

/-- R107: with seed 0, zero bytes at the front of the range do not change the CRC, and an all-zero string has CRC 0. -/
def Obligations.CrcIgnoresLeadingZeros : Prop :=
  (∀ (k : Nat) (d : Bytes), crc16 (List.replicate k 0x00#8 ++ d) 0 (k + d.length) 0 = crc16 d 0 d.length 0) ∧
  (∀ k : Nat, crc16 (List.replicate k 0x00#8) 0 k 0 = 0)

/-! The packet framer. -/

/-- R110: SPLIT returns ceil(T/1024) chunks, chunk i being `data[i*1024 .. min(i*1024 + 1024, T))`; every chunk but the last has 1024
bytes and the last 1 to 1024. Nothing else changes. -/
def Obligations.SplitResult : Prop :=
  ∀ (s : State) (data : Bytes), ∃ chunks, exec (.split data) s = .next { s with reply := .chunks chunks } ∧
    chunks.length = (data.length + 1023) / 1024 ∧
    (∀ i c, chunks[i]? = some c →
      c = (data.take (min (i * 1024 + 1024) data.length)).drop (i * 1024) ∧
      (i + 1 < chunks.length → c.length = 1024) ∧
      (i + 1 = chunks.length → c.length = data.length - (chunks.length - 1) * 1024 ∧ 1 ≤ c.length ∧ c.length ≤ 1024))

/-- R121: SPLIT's chunks concatenate to the file, and data packet k of the queue carries chunk k-1 at offset 3. -/
def Obligations.SplitRoundTrip : Prop :=
  ∀ (s : State) (data name : Bytes), ∃ chunks, exec (.split data) s = .next { s with reply := .chunks chunks } ∧
    chunks.flatten = data ∧
    (∀ k c, 1 ≤ k → chunks[k - 1]? = some c → ∃ f, (buildQueue name data)[k]? = some f ∧ (f.drop 3).take c.length = c)

/-- R112: the decimal text has only ASCII digits, no leading zero unless it is "0", and the number as its value; DEC(0) is "0". -/
def Obligations.DecimalTextDenotesTheNumber : Prop :=
  decText 0 = [0x30#8] ∧
  (∀ n : Nat, decimalValue (decText n) = n ∧ (∀ b ∈ decText n, 0x30 ≤ b.toNat ∧ b.toNat ≤ 0x39) ∧ decText n ≠ [] ∧
    (n ≠ 0 → (decText n).head? ≠ some 0x30#8))

/-- R113 with R74: when the metadata fits, BUILD_HEADER returns `01 00 FF`, the metadata zero-padded to 128 bytes, and the payload's
big-endian CRC: 133 bytes; else it raises HEADER_OVERFLOW. Nothing else changes. -/
def Obligations.BuildHeaderResult : Prop :=
  (∀ (s : State) (name : Bytes) (size : Nat), name.length + (decText size).length + 2 ≤ 128 →
    ∃ payload f, exec (.buildHeader name size) s = .next { s with reply := .frame f } ∧
      payload = name ++ [0x00#8] ++ decText size ++ [0x20#8] ++
        List.replicate (126 - name.length - (decText size).length) 0x00#8 ∧
      f = [0x01#8, 0x00#8, 0xFF#8] ++ payload ++ [hiByte (crc16 payload 0 128 0), loByte (crc16 payload 0 128 0)] ∧
      payload.length = 128 ∧ f.length = 133) ∧
  (∀ (s : State) (name : Bytes) (size : Nat), 128 < name.length + (decText size).length + 2 →
    exec (.buildHeader name size) s =
      .next { s with reply := .refused (.headerOverflow (name.length + (decText size).length + 2)) })

/-- R114: when the metadata does not fit in 128 bytes, BUILD_HEADER raises HEADER_OVERFLOW, and START on a free stream is refused with
no session created. In both the answer is all that changes. -/
def Obligations.HeaderOverflowRefused : Prop :=
  ∀ (s : State) (name data : Bytes) (size : Nat),
    (128 < name.length + (decText size).length + 2 → exec (.buildHeader name size) s =
      .next { s with reply := .refused (.headerOverflow (name.length + (decText size).length + 2)) }) ∧
    (∀ stream, s.busy stream = false → 128 < name.length + (decText data.length).length + 2 →
      exec (.start stream name data) s =
        .next { s with reply := .refused (.headerOverflow (name.length + (decText data.length).length + 2)) })

/-- R120: a receiver reads the exact name (with no 0x00 byte) and size back from the header's payload. -/
def Obligations.HeaderParseBack : Prop :=
  ∀ (s : State) (name : Bytes) (size : Nat), 0x00#8 ∉ name → name.length + (decText size).length + 2 ≤ 128 →
    ∃ f, exec (.buildHeader name size) s = .next { s with reply := .frame f } ∧
      headerNameOf ((f.drop 3).take 128) = name ∧ decimalValue (headerDigitsOf ((f.drop 3).take 128)) = size

/-- R115 with R111 and R116: for a chunk of 1 to 1024 bytes BUILD_DATA returns marker, `seq mod 256`, its complement, the chunk padded
with 0x1A to 128 bytes (STX frames: 1024), and the payload's big-endian CRC, whatever the final bit; any other chunk is refused.
Nothing else changes. -/
def Obligations.BuildDataResult : Prop :=
  ∀ (s : State) (chunk : Bytes) (seq : Nat) (isFinal : Bool),
    (1 ≤ chunk.length → chunk.length ≤ 1024 →
      ∃ fs marker payload f, (chunk.length ≤ 128 → fs = 128 ∧ marker = 0x01#8) ∧
        (128 < chunk.length → fs = 1024 ∧ marker = 0x02#8) ∧
        payload = chunk ++ List.replicate (fs - chunk.length) 0x1A#8 ∧ payload.length = fs ∧
        f = [marker, BitVec.ofNat 8 (seq % 256), BitVec.ofNat 8 (255 - seq % 256)] ++ payload ++
          [hiByte (crc16 payload 0 fs 0), loByte (crc16 payload 0 fs 0)] ∧
        exec (.buildData chunk seq isFinal) s = .next { s with reply := .frame f }) ∧
    (chunk.length = 0 ∨ 1024 < chunk.length →
      exec (.buildData chunk seq isFinal) s = .next { s with reply := .refused (.chunkSize chunk.length) })

/-- R117: BUILD_DATA refuses an empty chunk and one of more than 1024 bytes with CHUNK_SIZE; SPLIT never produces one. -/
def Obligations.ChunkSizeRefused : Prop :=
  (∀ (s : State) (chunk : Bytes) (seq : Nat) (isFinal : Bool), chunk.length = 0 ∨ 1024 < chunk.length →
    exec (.buildData chunk seq isFinal) s = .next { s with reply := .refused (.chunkSize chunk.length) }) ∧
  (∀ data c, c ∈ splitData data → 1 ≤ c.length ∧ c.length ≤ 1024)

/-- R118: BUILD_EOT returns EOT_FRAME, whose first byte is 0x04, whatever its open bytes; nothing else changes. -/
def Obligations.BuildEotResult : Prop :=
  ∀ s : State, ∃ f, exec .buildEot s = .next { s with reply := .frame f } ∧ f = 0x04#8 :: s.params.eotTail ∧ 1 ≤ f.length

/-- R79: sequence and complement bytes of a queue index, which add up to 0xFF; multiples of 256 carry `00 FF` and index 255 `FF 00`. -/
def Obligations.SequenceBytesWrap : Prop :=
  (∀ k : Nat, (seqByte k).toNat = k % 256 ∧ (compByte k).toNat = 255 - k % 256 ∧
    (seqByte k).toNat + (compByte k).toNat = 0xFF ∧ compByte k = ~~~ seqByte k) ∧
  (∀ m : Nat, seqByte (256 * m) = 0x00#8 ∧ compByte (256 * m) = 0xFF#8) ∧
  seqByte 255 = 0xFF#8 ∧ compByte 255 = 0x00#8

/-- R122: the lengths of every frame the framer emits, and of a session's data frames together. -/
def Obligations.FrameLengths : Prop :=
  (∀ name size, name.length + (decText size).length + 2 ≤ 128 → (headerFrame name size).length = 133) ∧
  (∀ chunk seq fin, 1 ≤ chunk.length → chunk.length ≤ 128 → (dataFrame chunk seq fin).length = 133) ∧
  (∀ chunk seq fin, 128 < chunk.length → chunk.length ≤ 1024 → (dataFrame chunk seq fin).length = 1029) ∧
  bareEot.length = 1 ∧
  (∀ (s : State), ∃ f, exec .buildEot s = .next { s with reply := .frame f } ∧ f.length = 1 + s.params.eotTail.length) ∧
  (∀ name data, (buildQueue name data).length = 1 + (data.length + 1023) / 1024 ∧
    (1 ≤ data.length → ∃ last, (last = 133 ∨ last = 1029) ∧
      (((buildQueue name data).drop 1).map List.length).sum = 1029 * ((data.length + 1023) / 1024 - 1) + last))

/-! The inbound bytes. -/

/-- R131: C at the end of the queue sends the bare EOT and clears both flags, whatever the previous byte. -/
def Obligations.PollAtQueueEndSendsEot : Prop :=
  ∀ (s : State) (σ : Session), s.session? s.sel = some σ → σ.finished = false → σ.queue.length ≤ σ.cursor →
    ∃ t, exec .c s = .next t ∧ OnlySelected s t ∧
      t.session? s.sel = some
        { σ with
          armed := false
          active := false
          prev := some 0x43#8
          outq := σ.outq ++ [[0x04#8]]
          emitted := σ.emitted ++ [.write [0x04#8]] }

/-- R132: C with a packet at the cursor and a previous byte other than C sends that packet and sets both flags. -/
def Obligations.PollSendsPacketAtCursor : Prop :=
  ∀ (s : State) (σ : Session) (f : Bytes), s.session? s.sel = some σ → σ.finished = false →
    σ.queue[σ.cursor]? = some f → σ.prev ≠ some 0x43#8 →
    ∃ t, exec .c s = .next t ∧ OnlySelected s t ∧
      t.session? s.sel = some
        { σ with
          armed := true
          active := true
          prev := some 0x43#8
          outq := σ.outq ++ [f]
          emitted := σ.emitted ++ [.write f] }

/-- R133: C right after C, with a packet at the cursor, does nothing. -/
def Obligations.DuplicatePollSuppressed : Prop :=
  ∀ (s : State) (σ : Session), s.session? s.sel = some σ → σ.finished = false →
    σ.cursor < σ.queue.length → σ.prev = some 0x43#8 →
    ∃ t, exec .c s = .next t ∧ OnlySelected s t ∧ t.session? s.sel = some σ

/-- R135 with R186: ACK while ACTIVE = 0 tears the session down: READ_RELEASE, then the outcome with cause ACK_INACTIVE. -/
def Obligations.AckInactiveTearsDown : Prop :=
  ∀ (s : State) (σ : Session), s.session? s.sel = some σ → σ.finished = false → σ.active = false →
    ∃ t, exec .ack s = .next t ∧ OnlySelected s t ∧
      t.session? s.sel = some
        { σ with
          readHeld := false
          finished := true
          prev := some 0x06#8
          result := some (.outcome σ.name σ.total σ.written .ackInactive)
          emitted := σ.emitted ++ [.readRelease, .result (.outcome σ.name σ.total σ.written .ackInactive)] }

/-- R136: ACK of the header advances the cursor to 1 and sends nothing. -/
def Obligations.AckOfHeaderAdvances : Prop :=
  ∀ (s : State) (σ : Session), s.session? s.sel = some σ → σ.finished = false →
    σ.active = true → σ.armed = true → σ.cursor = 0 →
    ∃ t, exec .ack s = .next t ∧ OnlySelected s t ∧ t.session? s.sel = some { σ with cursor := 1, prev := some 0x06#8 }

/-- R137 with R138: ACK of a data packet: WRITTEN, the cursor, PROGRESS, then the next packet; with no further packet, the EOT phase:
both flags cleared and the bare EOT sent. The value of PROGRESS is stated where TOTAL >= 1, which R137 shows to hold. -/
def Obligations.AckOfDataAdvances : Prop :=
  ∀ (s : State) (σ : Session), s.session? s.sel = some σ → σ.finished = false →
    σ.active = true → σ.armed = true → 0 < σ.cursor → σ.cursor < σ.queue.length →
    ∃ t pct, exec .ack s = .next t ∧ OnlySelected s t ∧ pct ≤ 100 ∧
      (0 < σ.total → pct = 100 * min (σ.cursor * 1024) σ.total / σ.total) ∧
      (∀ f, σ.queue[σ.cursor + 1]? = some f → t.session? s.sel = some
        { σ with
          written := min (σ.cursor * 1024) σ.total
          cursor := σ.cursor + 1
          prev := some 0x06#8
          outq := σ.outq ++ [f]
          emitted := σ.emitted ++ [.progress pct, .write f] }) ∧
      (σ.cursor + 1 = σ.queue.length → t.session? s.sel = some
        { σ with
          written := min (σ.cursor * 1024) σ.total
          cursor := σ.cursor + 1
          prev := some 0x06#8
          armed := false
          active := false
          outq := σ.outq ++ [[0x04#8]]
          emitted := σ.emitted ++ [.progress pct, .write [0x04#8]] })

/-- R139: ACK with the armed cursor at the end clears both flags and sends the bare EOT. The condition 0 < CURSOR holds in every
session, whose queue is never empty (R23). -/
def Obligations.AckArmedAtEndSendsEot : Prop :=
  ∀ (s : State) (σ : Session), s.session? s.sel = some σ → σ.finished = false →
    σ.active = true → σ.armed = true → 0 < σ.cursor → σ.cursor = σ.queue.length →
    ∃ t, exec .ack s = .next t ∧ OnlySelected s t ∧
      t.session? s.sel = some
        { σ with
          armed := false
          active := false
          prev := some 0x06#8
          outq := σ.outq ++ [[0x04#8]]
          emitted := σ.emitted ++ [.write [0x04#8]] }

/-- R140, D14 allow no action or a fault for an ACK with ACTIVE = 1 and ARMED = 0; that it takes no action is the model's choice (log 7). -/
def Obligations.AckUnarmedDoesNothing : Prop :=
  ∀ (s : State) (σ : Session), s.session? s.sel = some σ → σ.finished = false → σ.active = true → σ.armed = false →
    ∃ t, exec .ack s = .next t ∧ OnlySelected s t ∧ t.session? s.sel = some { σ with prev := some 0x06#8 }

/-- R141: NAK sends the packet at the cursor again, or at the end of the queue the bare EOT or EOT_FRAME by EOT_RETX; no flag and no
cursor changes. -/
def Obligations.NakResends : Prop :=
  ∀ (s : State) (σ : Session) (f : Bytes), s.session? s.sel = some σ → σ.finished = false →
    (σ.queue[σ.cursor]? = some f ∨
      (σ.queue.length ≤ σ.cursor ∧ s.params.eotRetx = .bare ∧ f = [0x04#8]) ∨
      (σ.queue.length ≤ σ.cursor ∧ s.params.eotRetx = .frame ∧ f = s.params.eotFrame)) →
    ∃ t, exec .nak s = .next t ∧ OnlySelected s t ∧
      t.session? s.sel = some
        { σ with
          prev := some 0x15#8
          outq := σ.outq ++ [f]
          emitted := σ.emitted ++ [.write f] }

/-- R142 with R184: one CA in any running state tears the session down with the byte count reached; the flags and the cursor stay. -/
def Obligations.CancelTearsDown : Prop :=
  ∀ (s : State) (σ : Session), s.session? s.sel = some σ → σ.finished = false →
    ∃ t, exec .ca s = .next t ∧ OnlySelected s t ∧
      t.session? s.sel = some
        { σ with
          readHeld := false
          finished := true
          prev := some 0x18#8
          result := some (.outcome σ.name σ.total σ.written .cancel)
          emitted := σ.emitted ++ [.readRelease, .result (.outcome σ.name σ.total σ.written .cancel)] }

/-- R143, R72: a byte of no meaning only writes PREV. -/
def Obligations.OtherByteOnlyRecordsPrev : Prop :=
  ∀ (s : State) (σ : Session) (b : Byte), (Instr.other b).wellFormed = true → s.session? s.sel = some σ → σ.finished = false →
    ∃ t, exec (.other b) s = .next t ∧ OnlySelected s t ∧ t.session? s.sel = some { σ with prev := some b }

/-- R144: once FINISHED = 1 every inbound byte is discarded without effect, alone or in a chunk. -/
def Obligations.BytesAfterSettleDiscarded : Prop :=
  ∀ (s : State) (σ : Session), s.session? s.sel = some σ → σ.finished = true →
    (∀ b : Byte, exec (decodeByte b) s = .next s) ∧ (∀ c : Bytes, exec (.inChunk c) s = .next s)

/-- R164, R197: after settle the block takes no IN_CHUNK, IN_EOS or READ_FAIL, and a WRITE_FAIL or WRITE_DONE has no effect: no
register, port or result changes and no READ_REQ is emitted. -/
def Obligations.EventsAfterSettleDiscarded : Prop :=
  ∀ (s : State) (σ : Session) (i : Instr), s.session? s.sel = some σ → σ.finished = true →
    ((∃ c, i = .inChunk c) ∨ i = .inEos ∨ i = .readFail ∨ i = .writeFail ∨ i = .writeDone) → exec i s = .next s

/-- The model's reading (log 9): an event at a stream that has had no START is discarded too. -/
def Obligations.EventsWithoutSessionDiscarded : Prop :=
  ∀ (s : State) (i : Instr), s.session? s.sel = none →
    (i.isPort = false ∨ (∃ c, i = .inChunk c) ∨ i = .inEos ∨ i = .readFail ∨ i = .writeFail ∨ i = .writeDone) →
    exec i s = .next s

/-- R145: every packet a byte sends is the queue's packet at the cursor the byte leaves, and no byte changes the queue; so two sends at
one cursor are the same byte string. -/
def Obligations.SendsAreQueuePackets : Prop :=
  ∀ (s t : State) (σ : Session) (b : Byte), s.session? s.sel = some σ → exec (decodeByte b) s = .next t →
    ∃ τ, t.session? s.sel = some τ ∧ τ.queue = σ.queue ∧
      (τ.outq = σ.outq ∨ τ.outq = σ.outq ++ [[0x04#8]] ∨ τ.outq = σ.outq ++ [s.params.eotFrame] ∨
        ∃ f, τ.queue[τ.cursor]? = some f ∧ τ.outq = σ.outq ++ [f])

/-! The session's events. -/

/-- R165: IN_CHUNK runs the per-byte step of its first byte and goes on with the rest, in order; the empty chunk emits the next
READ_REQ of a running session and changes nothing else. -/
def Obligations.ChunkRunsItsBytesInOrder : Prop :=
  (∀ (s : State) (b : Byte) (c : Bytes), ∃ t, exec (decodeByte b) s = .next t ∧
    exec (.inChunk (b :: c)) s = exec (.inChunk c) t) ∧
  (∀ (s : State) (σ : Session), s.session? s.sel = some σ → σ.finished = false →
    ∃ t, exec (.inChunk []) s = .next t ∧ OnlySelected s t ∧
      t.session? s.sel = some { σ with emitted := σ.emitted ++ [.readReq] })

/-- R165's consequence: two chunks give the same registers and the same outputs in the same order as one chunk of all their bytes, but
for the READ_REQ between them. -/
def Obligations.ChunkCutsCarryNoMeaning : Prop :=
  ∀ (s : State) (σ : Session) (c d : Bytes), s.session? s.sel = some σ →
    ∃ t u v τ ω, exec (.inChunk c) s = .next t ∧ exec (.inChunk d) t = .next u ∧ exec (.inChunk (c ++ d)) s = .next v ∧
      u.session? s.sel = some τ ∧ v.session? s.sel = some ω ∧
      { τ with emitted := [] } = { ω with emitted := [] } ∧
      τ.emitted.filter OutEvent.notReadReq = ω.emitted.filter OutEvent.notReadReq

/-- R166 with R186: IN_EOS tears a running session down with the byte count reached and cause END_OF_STREAM. -/
def Obligations.EndOfStreamTearsDown : Prop :=
  ∀ (s : State) (σ : Session), s.session? s.sel = some σ → σ.finished = false →
    ∃ t, exec .inEos s = .next t ∧ OnlySelected s t ∧
      t.session? s.sel = some
        { σ with
          readHeld := false
          finished := true
          result := some (.outcome σ.name σ.total σ.written .endOfStream)
          emitted := σ.emitted ++ [.readRelease, .result (.outcome σ.name σ.total σ.written .endOfStream)] }

/-- R182 with R188: READ_FAIL and WRITE_FAIL abort a running session: READ_RELEASE, then an ERROR of their kind and no outcome; OUTQ
keeps the writes already issued. -/
def Obligations.TransportFailureAborts : Prop :=
  ∀ (s : State) (σ : Session) (i : Instr) (kind : ErrorKind),
    s.session? s.sel = some σ → σ.finished = false →
    ((i = .readFail ∧ kind = .transportRead) ∨ (i = .writeFail ∧ kind = .transportWrite)) →
    ∃ t, exec i s = .next t ∧ OnlySelected s t ∧
      t.session? s.sel = some
        { σ with
          readHeld := false
          finished := true
          result := some (.error kind)
          emitted := σ.emitted ++ [.readRelease, .result (.error kind)] }

/-- R172: WRITE_DONE has no effect on any register or output. -/
def Obligations.WriteDoneHasNoEffect : Prop := ∀ s : State, exec .writeDone s = .next s

/-- R181, D24: a refusal changes nothing but the answer to whoever drove the operation, whatever the operation; each code comes only from the
operations its row names; the session errors have codes 1 and 2. -/
def Obligations.RefusalsChangeNothing : Prop :=
  (∀ (s t : State) (i : Instr) (r : PortRefusal), exec i s = .next t → s.reply ≠ .refused r → t.reply = .refused r →
    t = { s with reply := .refused r } ∧
    ((r.code = 16 ∧ ((∃ stream name data, i = .start stream name data) ∨ ∃ name size, i = .buildHeader name size)) ∨
      (r.code = 17 ∧ ∃ stream name data, i = .start stream name data) ∨
      (r.code = 32 ∧ ∃ buf start length seed, i = .crc16 buf start length seed) ∨
      (r.code = 33 ∧ ∃ chunk seq isFinal, i = .buildData chunk seq isFinal))) ∧
  ErrorKind.transportRead.code = 1 ∧ ErrorKind.transportWrite.code = 2

/-! Whole-machine rules. -/

/-- R36, R22 to R34: from every state that meets the invariant, whatever the event taken, the next state meets it. -/
def Obligations.StepKeepsInvariant : Prop := ∀ s t : State, s.Inv → step s = .next t → t.Inv

/-- The invariant holds at reset. -/
def Obligations.ResetMeetsInvariant : Prop := State.reset.Inv

/-- R31: the named state is the first matching line's; it is never `Closing`; and under R36's invariant some line matches. -/
def Obligations.NamedStateIsDefined : Prop :=
  ∀ σ : Session,
    (σ.finished = true → σ.namedState = some .done) ∧
    (σ.finished = false → σ.active = false → σ.cursor = 0 → σ.namedState = some .idle) ∧
    (σ.finished = false → σ.active = false → σ.cursor ≠ 0 → σ.cursor = σ.queue.length →
      σ.namedState = some .awaitingFinalAck) ∧
    (σ.finished = false → σ.active = true → σ.armed = true → σ.cursor = 0 → σ.namedState = some .started) ∧
    (σ.finished = false → σ.active = true → σ.armed = true → 1 ≤ σ.cursor → σ.namedState = some .transmitting) ∧
    σ.namedState ≠ some .closing ∧ (∀ P, σ.Inv P → σ.namedState ≠ none)

/-- R22, R27, R34, R64: whatever the event, but for a START on its stream, a session of a state that meets the invariant keeps NAME,
TOTAL and QUEUE; CURSOR and WRITTEN never decrease; OUTQ and the output events are only appended to. -/
def Obligations.RegistersOnlyGrow : Prop :=
  ∀ (s t : State) (i : Instr) (k : Stream) (σ : Session), s.Inv → exec i s = .next t → startStream? i ≠ some k →
    s.session? k = some σ → ∃ τ, t.session? k = some τ ∧ τ.name = σ.name ∧ τ.total = σ.total ∧ τ.queue = σ.queue ∧
      σ.cursor ≤ τ.cursor ∧ σ.written ≤ τ.written ∧ (∃ ws, τ.outq = σ.outq ++ ws) ∧ (∃ es, τ.emitted = σ.emitted ++ es)

/-- R36 item 6, R192: a settled session is frozen: whatever the event, but for a new START on its stream, no register changes and no
output is emitted. -/
def Obligations.SettledSessionFrozen : Prop :=
  ∀ (s t : State) (i : Instr) (k : Stream) (σ : Session), exec i s = .next t → startStream? i ≠ some k →
    s.session? k = some σ → σ.finished = true → t.session? k = some σ

/-- R187, R208: a session that is running before an event and settled after it emitted READ_RELEASE and then RESULT as its last two
events, with no settling event before them in that step, and released the read resource. -/
def Obligations.SettlesOnceReleaseFirst : Prop :=
  ∀ (s t : State) (i : Instr) (k : Stream) (σ τ : Session), exec i s = .next t → startStream? i ≠ some k →
    s.session? k = some σ → σ.finished = false → t.session? k = some τ →
    ∃ es, es.all (fun e => !e.isSettling) = true ∧
      ((τ.finished = false ∧ τ.emitted = σ.emitted ++ es ∧ τ.result = σ.result ∧ τ.readHeld = σ.readHeld) ∨
       (τ.finished = true ∧ τ.readHeld = false ∧
        ∃ r, τ.result = some r ∧ τ.emitted = σ.emitted ++ es ++ [.readRelease, .result r]))

/-- R167: under the invariant there is one PROGRESS value per acknowledged data packet, none above 100, never decreasing; the last one
before the EOT phase of a file is 100, and a 0-byte file emits none. -/
def Obligations.ProgressNeverDecreases : Prop :=
  ∀ (P : Params) (σ : Session), σ.Inv P →
    σ.progressValues.length = σ.cursor - 1 ∧ σ.progressValues.Pairwise (· ≤ ·) ∧ (∀ p ∈ σ.progressValues, p ≤ 100) ∧
    (σ.cursor = σ.queue.length → 0 < σ.total → σ.progressValues.getLast? = some 100) ∧
    (σ.total = 0 → σ.progressValues = [])

/-- R82 under the default EOT_RETX = BARE: a write's first byte tells its length, and no other first byte occurs. -/
def Obligations.WriteLengthByFirstByte : Prop :=
  ∀ (P : Params) (σ : Session), σ.Inv P → P.eotRetx = .bare → ∀ f ∈ σ.outq, ∃ b, f.head? = some b ∧
    ((b = 0x01#8 ∧ f.length = 133) ∨ (b = 0x02#8 ∧ f.length = 1029) ∨ (b = 0x04#8 ∧ f.length = 1))

/-- R108, R106: every packet of a session's queue carries the CRC of its payload: payload and trailer together have CRC 0. -/
def Obligations.EveryPacketPassesItsCrc : Prop :=
  ∀ (P : Params) (σ : Session) (k : Nat) (f : Bytes), σ.Inv P → σ.queue[k]? = some f →
    (f.length = 133 ∨ f.length = 1029) ∧ crcFold 0 (f.drop 3) = 0

/-- R169, R195: sessions on different streams share nothing: an event changes no session but the one at its own ports (for START, on
the stream it names), and what it does there depends on nothing of the others. -/
def Obligations.StreamsAreIsolated : Prop :=
  (∀ (s t : State) (i : Instr) (k : Stream), exec i s = .next t → k ≠ s.sel → startStream? i ≠ some k →
    t.session? k = s.session? k) ∧
  (∀ (s s' t t' : State) (i : Instr) (k : Stream), s.params = s'.params → s.sel = s'.sel →
    s.session? k = s'.session? k → (startStream? i ≠ none → startStream? i = some k) →
    exec i s = .next t → exec i s' = .next t' → t.session? k = t'.session? k)

/-- R35, R202: no event writes a parameter. -/
def Obligations.ParametersNeverChange : Prop := ∀ s t : State, step s = .next t → t.params = s.params

/-- R6 and R165 agree: taking a chunk in delivery one byte a step, and then the READ_REQ that follows it, ends in the very state that
IN_CHUNK as one atomic event gives. The delivery byte by byte and the step of its own for the READ_REQ are the model's choice (log 2). -/
def Obligations.ByteStepsRefineTheChunk : Prop :=
  ∀ (s : State) (stream : Stream) (chunk : Bytes) (rest : List Input), s.inputs = .bytes stream chunk :: rest →
    ∃ t, exec (.inChunk chunk) { s with sel := stream, inputs := rest } = .next t ∧
      Host.Core.run Sys2Proof.core (chunk.length + 1) s = .next t
end

