-- ==== Sys2Proof/Laws/State.lean ====
section
/-! SUPPORT. One lemma per field per update of the state and of a session. -/

namespace Sys2Proof.Machine

@[simp] theorem Session.emit_name (σ : Session) (e : OutEvent) : (σ.emit e).name = σ.name := rfl
@[simp] theorem Session.emit_total (σ : Session) (e : OutEvent) : (σ.emit e).total = σ.total := rfl
@[simp] theorem Session.emit_queue (σ : Session) (e : OutEvent) : (σ.emit e).queue = σ.queue := rfl
@[simp] theorem Session.emit_cursor (σ : Session) (e : OutEvent) : (σ.emit e).cursor = σ.cursor := rfl
@[simp] theorem Session.emit_active (σ : Session) (e : OutEvent) : (σ.emit e).active = σ.active := rfl
@[simp] theorem Session.emit_armed (σ : Session) (e : OutEvent) : (σ.emit e).armed = σ.armed := rfl
@[simp] theorem Session.emit_finished (σ : Session) (e : OutEvent) : (σ.emit e).finished = σ.finished := rfl
@[simp] theorem Session.emit_written (σ : Session) (e : OutEvent) : (σ.emit e).written = σ.written := rfl
@[simp] theorem Session.emit_prev (σ : Session) (e : OutEvent) : (σ.emit e).prev = σ.prev := rfl
@[simp] theorem Session.emit_readHeld (σ : Session) (e : OutEvent) : (σ.emit e).readHeld = σ.readHeld := rfl
@[simp] theorem Session.emit_result (σ : Session) (e : OutEvent) : (σ.emit e).result = σ.result := rfl
@[simp] theorem Session.emit_outq (σ : Session) (e : OutEvent) : (σ.emit e).outq = σ.outq := rfl
@[simp] theorem Session.emit_emitted (σ : Session) (e : OutEvent) : (σ.emit e).emitted = σ.emitted ++ [e] := rfl

@[simp] theorem Session.send_name (σ : Session) (s : Bytes) : (σ.send s).name = σ.name := rfl
@[simp] theorem Session.send_total (σ : Session) (s : Bytes) : (σ.send s).total = σ.total := rfl
@[simp] theorem Session.send_queue (σ : Session) (s : Bytes) : (σ.send s).queue = σ.queue := rfl
@[simp] theorem Session.send_cursor (σ : Session) (s : Bytes) : (σ.send s).cursor = σ.cursor := rfl
@[simp] theorem Session.send_active (σ : Session) (s : Bytes) : (σ.send s).active = σ.active := rfl
@[simp] theorem Session.send_armed (σ : Session) (s : Bytes) : (σ.send s).armed = σ.armed := rfl
@[simp] theorem Session.send_finished (σ : Session) (s : Bytes) : (σ.send s).finished = σ.finished := rfl
@[simp] theorem Session.send_written (σ : Session) (s : Bytes) : (σ.send s).written = σ.written := rfl
@[simp] theorem Session.send_prev (σ : Session) (s : Bytes) : (σ.send s).prev = σ.prev := rfl
@[simp] theorem Session.send_readHeld (σ : Session) (s : Bytes) : (σ.send s).readHeld = σ.readHeld := rfl
@[simp] theorem Session.send_result (σ : Session) (s : Bytes) : (σ.send s).result = σ.result := rfl
@[simp] theorem Session.send_outq (σ : Session) (s : Bytes) : (σ.send s).outq = σ.outq ++ [s] := rfl
@[simp] theorem Session.send_emitted (σ : Session) (s : Bytes) : (σ.send s).emitted = σ.emitted ++ [.write s] := rfl

@[simp] theorem Session.arm_name (σ : Session) : (σ.arm).name = σ.name := rfl
@[simp] theorem Session.arm_total (σ : Session) : (σ.arm).total = σ.total := rfl
@[simp] theorem Session.arm_queue (σ : Session) : (σ.arm).queue = σ.queue := rfl
@[simp] theorem Session.arm_cursor (σ : Session) : (σ.arm).cursor = σ.cursor := rfl
@[simp] theorem Session.arm_active (σ : Session) : (σ.arm).active = true := rfl
@[simp] theorem Session.arm_armed (σ : Session) : (σ.arm).armed = true := rfl
@[simp] theorem Session.arm_finished (σ : Session) : (σ.arm).finished = σ.finished := rfl
@[simp] theorem Session.arm_written (σ : Session) : (σ.arm).written = σ.written := rfl
@[simp] theorem Session.arm_prev (σ : Session) : (σ.arm).prev = σ.prev := rfl
@[simp] theorem Session.arm_readHeld (σ : Session) : (σ.arm).readHeld = σ.readHeld := rfl
@[simp] theorem Session.arm_result (σ : Session) : (σ.arm).result = σ.result := rfl
@[simp] theorem Session.arm_outq (σ : Session) : (σ.arm).outq = σ.outq := rfl
@[simp] theorem Session.arm_emitted (σ : Session) : (σ.arm).emitted = σ.emitted := rfl

@[simp] theorem Session.disarm_name (σ : Session) : (σ.disarm).name = σ.name := rfl
@[simp] theorem Session.disarm_total (σ : Session) : (σ.disarm).total = σ.total := rfl
@[simp] theorem Session.disarm_queue (σ : Session) : (σ.disarm).queue = σ.queue := rfl
@[simp] theorem Session.disarm_cursor (σ : Session) : (σ.disarm).cursor = σ.cursor := rfl
@[simp] theorem Session.disarm_active (σ : Session) : (σ.disarm).active = false := rfl
@[simp] theorem Session.disarm_armed (σ : Session) : (σ.disarm).armed = false := rfl
@[simp] theorem Session.disarm_finished (σ : Session) : (σ.disarm).finished = σ.finished := rfl
@[simp] theorem Session.disarm_written (σ : Session) : (σ.disarm).written = σ.written := rfl
@[simp] theorem Session.disarm_prev (σ : Session) : (σ.disarm).prev = σ.prev := rfl
@[simp] theorem Session.disarm_readHeld (σ : Session) : (σ.disarm).readHeld = σ.readHeld := rfl
@[simp] theorem Session.disarm_result (σ : Session) : (σ.disarm).result = σ.result := rfl
@[simp] theorem Session.disarm_outq (σ : Session) : (σ.disarm).outq = σ.outq := rfl
@[simp] theorem Session.disarm_emitted (σ : Session) : (σ.disarm).emitted = σ.emitted := rfl

@[simp] theorem State.answer_params (s : State) (r : Reply) : (s.answer r).params = s.params := rfl
@[simp] theorem State.answer_sessions (s : State) (r : Reply) : (s.answer r).sessions = s.sessions := rfl
@[simp] theorem State.answer_sel (s : State) (r : Reply) : (s.answer r).sel = s.sel := rfl
@[simp] theorem State.answer_reply (s : State) (r : Reply) : (s.answer r).reply = r := rfl
@[simp] theorem State.answer_inputs (s : State) (r : Reply) : (s.answer r).inputs = s.inputs := rfl

@[simp] theorem State.onSession_params (s : State) (f : Session → Session) : (s.onSession f).params = s.params := rfl
@[simp] theorem State.onSession_sessions (s : State) (f : Session → Session) : (s.onSession f).sessions = modifySession s.sessions s.sel f := rfl
@[simp] theorem State.onSession_sel (s : State) (f : Session → Session) : (s.onSession f).sel = s.sel := rfl
@[simp] theorem State.onSession_reply (s : State) (f : Session → Session) : (s.onSession f).reply = s.reply := rfl
@[simp] theorem State.onSession_inputs (s : State) (f : Session → Session) : (s.onSession f).inputs = s.inputs := rfl

@[simp] theorem State.putSession_params (s : State) (k : Stream) (σ : Session) : (s.putSession k σ).params = s.params := rfl
@[simp] theorem State.putSession_sessions (s : State) (k : Stream) (σ : Session) : (s.putSession k σ).sessions = insertSession s.sessions k σ := rfl
@[simp] theorem State.putSession_sel (s : State) (k : Stream) (σ : Session) : (s.putSession k σ).sel = s.sel := rfl
@[simp] theorem State.putSession_reply (s : State) (k : Stream) (σ : Session) : (s.putSession k σ).reply = s.reply := rfl
@[simp] theorem State.putSession_inputs (s : State) (k : Stream) (σ : Session) : (s.putSession k σ).inputs = s.inputs := rfl

@[simp] theorem State.takeAt_params (s : State) (k : Stream) (l : List Input) : (s.takeAt k l).params = s.params := rfl
@[simp] theorem State.takeAt_sessions (s : State) (k : Stream) (l : List Input) : (s.takeAt k l).sessions = s.sessions := rfl
@[simp] theorem State.takeAt_sel (s : State) (k : Stream) (l : List Input) : (s.takeAt k l).sel = k := rfl
@[simp] theorem State.takeAt_reply (s : State) (k : Stream) (l : List Input) : (s.takeAt k l).reply = s.reply := rfl
@[simp] theorem State.takeAt_inputs (s : State) (k : Stream) (l : List Input) : (s.takeAt k l).inputs = l := rfl
/-- An answer leaves every session alone. -/
@[simp] theorem State.answer_session? (s : State) (r : Reply) (k : Stream) : (s.answer r).session? k = s.session? k := rfl

/-- Taking an event leaves every session alone. -/
@[simp] theorem State.takeAt_session? (s : State) (j : Stream) (l : List Input) (k : Stream) :
    (s.takeAt j l).session? k = s.session? k := rfl

end Sys2Proof.Machine
end

