-- ==== Sys2Proof/Laws/Ops.lean ====
section
/-! SUPPORT. What the shared operations do: the table of sessions and its canonical form, settling, and the read request. -/

namespace Sys2Proof.Machine

/-! The table of sessions. -/

theorem lookup_modify_same (l : List (Stream × Session)) (k : Stream) (f : Session → Session) :
    lookupSession (modifySession l k f) k = (lookupSession l k).map f := by
  induction l with
  | nil => rfl
  | cons p l ih =>
    by_cases h : k = p.1
    · simp [modifySession, lookupSession, h]
    · simp [modifySession, lookupSession, h, ih]

theorem lookup_modify_other (l : List (Stream × Session)) (k j : Stream) (f : Session → Session) (h : j ≠ k) :
    lookupSession (modifySession l k f) j = lookupSession l j := by
  induction l with
  | nil => rfl
  | cons p l ih =>
    by_cases hk : k = p.1
    · subst hk; simp [modifySession, lookupSession, h]
    · by_cases hj : j = p.1 <;> simp [modifySession, lookupSession, hk, hj, ih]

theorem lookup_insert_same (l : List (Stream × Session)) (k : Stream) (σ : Session) :
    lookupSession (insertSession l k σ) k = some σ := by
  induction l with
  | nil => simp [insertSession, lookupSession]
  | cons p l ih =>
    by_cases h1 : k < p.1
    · simp [insertSession, lookupSession, h1]
    · by_cases h2 : k = p.1
      · simp [insertSession, lookupSession, h2]
      · simp [insertSession, lookupSession, h1, h2, ih]

theorem lookup_insert_other (l : List (Stream × Session)) (k j : Stream) (σ : Session) (h : j ≠ k) :
    lookupSession (insertSession l k σ) j = lookupSession l j := by
  induction l with
  | nil => simp [insertSession, lookupSession, h]
  | cons p l ih =>
    by_cases h1 : k < p.1
    · simp [insertSession, lookupSession, h1, h]
    · by_cases h2 : k = p.1
      · subst h2; simp [insertSession, lookupSession, h]
      · by_cases hj : j = p.1 <;> simp [insertSession, lookupSession, h1, h2, hj, ih]

/-- Changing a session to itself changes nothing. -/
theorem modify_of_fixed (l : List (Stream × Session)) (k : Stream) (f : Session → Session)
    (h : ∀ σ, lookupSession l k = some σ → f σ = σ) : modifySession l k f = l := by
  induction l with
  | nil => rfl
  | cons p l ih =>
    obtain ⟨k', σ⟩ := p
    by_cases hk : k = k'
    · simp [modifySession, hk, h σ (by simp [lookupSession, hk])]
    · have ih' := ih (fun σ' hσ' => h σ' (by simpa [lookupSession, hk] using hσ'))
      simp [modifySession, hk, ih']

/-- Two changes of one session are one change. -/
theorem modify_modify (l : List (Stream × Session)) (k : Stream) (f g : Session → Session) :
    modifySession (modifySession l k f) k g = modifySession l k (g ∘ f) := by
  induction l with
  | nil => rfl
  | cons p l ih => by_cases h : k = p.1 <;> simp [modifySession, h, ih]

theorem all_modify (l : List (Stream × Session)) (k : Stream) (f : Session → Session) (q : Stream → Bool) :
    (modifySession l k f).all (fun p => q p.1) = l.all (fun p => q p.1) := by
  induction l with
  | nil => rfl
  | cons p l ih => by_cases hk : k = p.1 <;> simp [modifySession, hk, ih]

/-- Changing a session keeps the canonical form. -/
theorem sorted_modify (l : List (Stream × Session)) (k : Stream) (f : Session → Session) :
    sessionsSorted (modifySession l k f) = sessionsSorted l := by
  induction l with
  | nil => rfl
  | cons p l ih =>
    obtain ⟨k', σ⟩ := p
    by_cases hk : k = k'
    · simp [modifySession, sessionsSorted, hk]
    · simp only [modifySession, hk, if_false, sessionsSorted, ih]
      rw [all_modify l k f (fun j => decide (k' < j))]

theorem all_insert (l : List (Stream × Session)) (k : Stream) (σ : Session) (q : Stream → Bool)
    (hl : l.all (fun p => q p.1) = true) (hk : q k = true) : (insertSession l k σ).all (fun p => q p.1) = true := by
  induction l with
  | nil => simp [insertSession, hk]
  | cons p l ih =>
    simp only [List.all_cons, Bool.and_eq_true] at hl
    by_cases h1 : k < p.1
    · simp only [insertSession, h1, if_true, List.all_cons, hk, hl.1, hl.2, Bool.and_self]
    · by_cases h2 : k = p.1
      · simp only [insertSession, h2, lt_irrefl, if_false, if_true, List.all_cons, hl.1, hl.2, Bool.and_self]
      · simp only [insertSession, h1, h2, if_false, List.all_cons, hl.1, ih hl.2, Bool.and_self]

/-- Inserting a session keeps the canonical form. -/
theorem sorted_insert (l : List (Stream × Session)) (k : Stream) (σ : Session) (h : sessionsSorted l = true) :
    sessionsSorted (insertSession l k σ) = true := by
  induction l with
  | nil => rfl
  | cons p l ih =>
    obtain ⟨k', σ'⟩ := p
    simp only [sessionsSorted, Bool.and_eq_true] at h
    by_cases h1 : k < k'
    · have hall : l.all (fun p => decide (k < p.1)) = true := by
        simp only [List.all_eq_true, decide_eq_true_eq] at h ⊢
        exact fun p hp => lt_trans h1 (h.1 p hp)
      simp [insertSession, sessionsSorted, h1, h.1, h.2, hall]
    · by_cases h2 : k = k'
      · subst h2; simp [insertSession, sessionsSorted, h.1, h.2]
      · have h3 : k' < k := lt_of_le_of_ne (not_lt.mp h1) (Ne.symm h2)
        simp only [insertSession, h1, h2, if_false, sessionsSorted, ih h.2, Bool.and_true]
        exact all_insert l k σ (fun j => decide (k' < j)) h.1 (by simp [h3])

/-! The same, for a state. -/

theorem State.onSession_same (s : State) (f : Session → Session) :
    (s.onSession f).session? s.sel = (s.session? s.sel).map f := lookup_modify_same _ _ _

theorem State.onSession_other (s : State) (f : Session → Session) (k : Stream) (h : k ≠ s.sel) :
    (s.onSession f).session? k = s.session? k := lookup_modify_other _ _ _ _ h

theorem State.putSession_same (s : State) (k : Stream) (σ : Session) : (s.putSession k σ).session? k = some σ :=
  lookup_insert_same _ _ _

theorem State.putSession_other (s : State) (k j : Stream) (σ : Session) (h : j ≠ k) :
    (s.putSession k σ).session? j = s.session? j := lookup_insert_other _ _ _ _ h

theorem State.onSession_onSession (s : State) (f g : Session → Session) :
    (s.onSession f).onSession g = s.onSession (g ∘ f) := by
  simp only [State.onSession, modify_modify]

theorem State.onSession_of_fixed (s : State) (f : Session → Session) (h : ∀ σ, s.session? s.sel = some σ → f σ = σ) :
    s.onSession f = s := by
  unfold State.onSession
  rw [modify_of_fixed _ _ _ h]

/-- Everything `onSession` can do. -/
theorem State.onSession_only (s : State) (f : Session → Session) : OnlySelected s (s.onSession f) :=
  ⟨rfl, rfl, rfl, rfl, fun k h => State.onSession_other s f k h⟩

/-- With a session at the selected ports, `onSession` gives it its new registers and changes nothing else. -/
theorem State.onSession_spec (s : State) (f : Session → Session) (σ : Session) (h : s.session? s.sel = some σ) :
    (s.onSession f).session? s.sel = some (f σ) ∧ OnlySelected s (s.onSession f) :=
  ⟨by rw [State.onSession_same, h]; rfl, State.onSession_only s f⟩

/-! Settling and the read request. -/

theorem Session.settle_running (σ : Session) (r : Result) (h : σ.finished = false) :
    σ.settle r =
      { σ with
        readHeld := false
        result := some r
        finished := true
        emitted := σ.emitted ++ [.readRelease, .result r] } := by
  simp [Session.settle, h]

@[simp] theorem Session.settle_settled (σ : Session) (r : Result) (h : σ.finished = true) : σ.settle r = σ := by
  simp [Session.settle, h]

@[simp] theorem Session.settle_finished (σ : Session) (r : Result) : (σ.settle r).finished = true := by
  by_cases h : σ.finished <;> simp [Session.settle, h]

@[simp] theorem Session.requestRead_settled (σ : Session) (h : σ.finished = true) : σ.requestRead = σ := by
  simp [Session.requestRead, h]

@[simp] theorem Session.requestRead_running (σ : Session) (h : σ.finished = false) : σ.requestRead = σ.emit .readReq := by
  simp [Session.requestRead, h]

@[simp] theorem Session.requestRead_finished (σ : Session) : σ.requestRead.finished = σ.finished := by
  by_cases h : σ.finished <;> simp [Session.requestRead, h]

end Sys2Proof.Machine
end

