-- ==== Sys2Proof/Laws/Operands.lean ====
section
/-! SUPPORT. The operand computations: buffer reads and writes, when each operand check passes, and the range of PROGRESS. -/

namespace Sys2Proof.Machine

theorem length_memRead (buf : Bytes) (addr n : Nat) : (memRead buf addr n).length = min n (buf.length - addr) := by
  simp [memRead]

/-- Reading a whole buffer gives the buffer. -/
@[simp] theorem memRead_all (buf : Bytes) : memRead buf 0 buf.length = buf := by simp [memRead]

/-- Adjacent reads join. -/
theorem memRead_append (buf : Bytes) (addr m n : Nat) :
    memRead buf addr (m + n) = memRead buf addr m ++ memRead buf (addr + m) n := by
  simp [memRead, List.take_add, List.drop_drop]

/-- A write inside a buffer keeps its length. -/
theorem length_memWrite (buf : Bytes) (addr : Nat) (v : Bytes) (h : addr + v.length ≤ buf.length) :
    (memWrite buf addr v).length = buf.length := by
  simp [memWrite]; omega

theorem checkCrcArgs_none (buf : Bytes) (start length seed : Nat) (h : start + length ≤ buf.length) (hs : seed ≤ 0xFFFF) :
    checkCrcArgs buf start length seed = none := by
  simp [checkCrcArgs, Nat.not_lt.mpr h, Nat.not_lt.mpr hs]

theorem checkHeader_none (name : Bytes) (size : Nat) (h : name.length + (decText size).length + 2 ≤ 128) :
    checkHeader name size = none := by
  simp [checkHeader, frameSmall, Nat.not_lt.mpr h]

theorem checkHeader_eq_none_iff (name : Bytes) (size : Nat) :
    checkHeader name size = none ↔ name.length + (decText size).length + 2 ≤ 128 := by
  rw [← Nat.not_lt, checkHeader]
  split <;> simp_all [frameSmall]

theorem checkChunk_none (chunk : Bytes) (h1 : 1 ≤ chunk.length) (h2 : chunk.length ≤ 1024) : checkChunk chunk = none := by
  have : ¬(chunk.length = 0 ∨ chunkSize < chunk.length) := by simp only [chunkSize]; omega
  simp only [checkChunk, this, if_false]

/-- START's checks pass exactly when the stream is free and the metadata fits. -/
theorem checkStart_none_iff (s : State) (stream : Stream) (name data : Bytes) :
    checkStart s stream name data = none ↔
      s.busy stream = false ∧ name.length + (decText data.length).length + 2 ≤ 128 := by
  cases h : s.busy stream <;> simp [checkStart, h, checkHeader_eq_none_iff]

/-- PROGRESS is a percentage. -/
theorem percent_le (w t : Nat) (h : w ≤ t) : percent w t ≤ 100 := by
  unfold percent
  split
  · omega
  · next h0 => exact Nat.div_le_of_le_mul (by rw [Nat.mul_comm t]; omega)

theorem percent_of_pos (w t : Nat) (h : 0 < t) : percent w t = 100 * w / t := by
  simp [percent, Nat.ne_of_gt h]

@[simp] theorem length_headerMeta (name : Bytes) (size : Nat) :
    (headerMeta name size).length = name.length + (decText size).length + 2 := by
  simp [headerMeta]; omega

end Sys2Proof.Machine
end

