-- ==== Sys2Proof/Laws/Checksum.lean ====
section
/-! SUPPORT. The checksum engine: the fold over segments, and that its bit steps are linear over exclusive-or. -/

namespace Sys2Proof.Machine

@[simp] theorem crcFold_nil (r : U16) : crcFold r [] = r := rfl

theorem crcFold_cons (r : U16) (b : Byte) (bs : Bytes) : crcFold r (b :: bs) = crcFold (crcByte r b) bs := rfl

/-- The register after one segment is the seed of the next. -/
theorem crcFold_append (r : U16) (as bs : Bytes) : crcFold r (as ++ bs) = crcFold (crcFold r as) bs :=
  List.foldl_append

/-- The framer's CRC is the fold over the whole payload from 0. -/
theorem payloadCrc_eq (payload : Bytes) : payloadCrc payload = crcFold 0 payload := by simp [payloadCrc, crc16]

/-- One bit step is linear. -/
theorem crcBit_xor (a b : U16) : crcBit (a ^^^ b) = crcBit a ^^^ crcBit b := by
  have hs : (a ^^^ b) <<< 1 = (a <<< 1) ^^^ (b <<< 1) := BitVec.shiftLeft_xor_distrib a b 1
  unfold crcBit
  rw [BitVec.getLsbD_xor, hs]
  cases a.getLsbD 15 <;> cases b.getLsbD 15 <;> simp only [Bool.xor_false, Bool.xor_true, Bool.not_false,
    Bool.not_true, if_true, Bool.false_eq_true, if_false]
  · rw [BitVec.xor_assoc]
  · rw [BitVec.xor_assoc, BitVec.xor_comm (b <<< 1), BitVec.xor_assoc]
  · rw [BitVec.xor_assoc, ← BitVec.xor_assoc crcPoly, BitVec.xor_comm crcPoly, BitVec.xor_assoc, BitVec.xor_self,
      BitVec.xor_zero]

/-- Any number of bit steps is linear. -/
theorem crcBits_xor (n : Nat) (a b : U16) : crcBits n (a ^^^ b) = crcBits n a ^^^ crcBits n b := by
  induction n generalizing a b with
  | zero => rfl
  | succ n ih => simp only [crcBits, crcBit_xor, ih]

end Sys2Proof.Machine
end

