-- ==== Sys2Proof/Laws/Decode.lean ====
section
/-! SUPPORT. Decoding: every byte decodes to a well-formed inbound instruction whose encoding it is. -/

namespace Sys2Proof

theorem decode_cons (b : Byte) (rest : Bytes) : decode (b :: rest) = .ok (decodeByte b, rest) := rfl

theorem decodeByte_spec (b : Byte) :
    (decodeByte b).wellFormed = true ∧ (decodeByte b).isPort = false ∧ encode (decodeByte b) = [b] := by
  unfold decodeByte
  by_cases h1 : b = ctlC
  · subst h1; decide
  by_cases h2 : b = ctlAck
  · subst h2; decide
  by_cases h3 : b = ctlNak
  · subst h3; decide
  by_cases h4 : b = ctlCa
  · subst h4; decide
  · simp [h1, h2, h3, h4, Instr.wellFormed, isControl, Instr.isPort, encode]

end Sys2Proof
end

