-- ==== Sys2Proof/Laws/Framer.lean ====
section
/-! SUPPORT. The framer: the number and bounds of SPLIT's chunks, and the lengths of payloads and frames. -/

namespace Sys2Proof.Machine

@[simp] theorem length_splitData (data : Bytes) : (splitData data).length = ceilDiv data.length chunkSize := by
  simp [splitData]

/-- Chunk `i` of SPLIT (R110). -/
theorem getElem?_splitData (data : Bytes) (i : Nat) :
    (splitData data)[i]? =
      if i < ceilDiv data.length chunkSize then
        some (memRead data (i * chunkSize) (min (i * chunkSize + chunkSize) data.length - i * chunkSize))
      else none := by
  by_cases h : i < ceilDiv data.length chunkSize <;> simp [splitData, h]

@[simp] theorem length_crcTrailer (payload : Bytes) : (crcTrailer payload).length = 2 := rfl

@[simp] theorem length_assembleFrame (marker : Byte) (k : Nat) (payload : Bytes) :
    (assembleFrame marker k payload).length = payload.length + 5 := by
  simp [assembleFrame]

/-- A payload that fits has 128 bytes. -/
theorem length_headerPayload (name : Bytes) (size : Nat) (h : name.length + (decText size).length + 2 ≤ 128) :
    (headerPayload name size).length = 128 := by
  unfold headerPayload
  rw [length_memWrite _ _ _ (by simpa [frameSmall] using h)]
  simp [frameSmall]

theorem frameSize_small (chunk : Bytes) (h : chunk.length ≤ 128) : frameSize chunk = 128 := by
  simp [frameSize, frameSmall, h]

theorem frameSize_large (chunk : Bytes) (h : 128 < chunk.length) : frameSize chunk = 1024 := by
  simp [frameSize, frameSmall, frameLarge, Nat.not_le.mpr h]

/-- A data payload has its frame's size. -/
theorem length_dataPayload (chunk : Bytes) (h : chunk.length ≤ 1024) : (dataPayload chunk).length = frameSize chunk := by
  have : chunk.length ≤ frameSize chunk := by
    rcases Nat.lt_or_ge 128 chunk.length with h' | h'
    · rw [frameSize_large _ h']; exact h
    · rw [frameSize_small _ h']; exact h'
  simp [dataPayload]; omega

@[simp] theorem length_buildQueue (name data : Bytes) :
    (buildQueue name data).length = 1 + ceilDiv data.length chunkSize := by
  simp [buildQueue]; omega

/-- Chunk `i` of SPLIT is what is left of the file at `1024 * i`, at most 1024 bytes of it, and never empty. -/
theorem splitData_chunk (data : Bytes) (i : Nat) (c : Bytes) (h : (splitData data)[i]? = some c) :
    c.length = min 1024 (data.length - i * 1024) ∧ i * 1024 < data.length := by
  rw [getElem?_splitData] at h
  split at h
  · next hi =>
    obtain rfl := Option.some.inj h
    rw [length_memRead]
    simp only [ceilDiv, chunkSize] at *
    omega
  · simp at h

/-- Entry `k` of the queue is the data frame of chunk `k - 1`. -/
theorem buildQueue_chunk (name data : Bytes) (k : Nat) (hk : 1 ≤ k) (c : Bytes) (h : (splitData data)[k - 1]? = some c) :
    (buildQueue name data)[k]? = some (dataFrame c k (k == (splitData data).length)) := by
  obtain ⟨j, rfl⟩ : ∃ j, k = j + 1 := ⟨k - 1, by omega⟩
  simp only [Nat.add_sub_cancel] at h
  obtain ⟨hlt, -⟩ := List.getElem?_eq_some_iff.mp h
  simp only [buildQueue, List.getElem?_cons_succ, List.getElem?_map, List.getElem?_range hlt, Option.map_some,
    List.getD_eq_getElem?_getD, h, Option.getD_some]

end Sys2Proof.Machine
end

