-- ==== Sys2Proof/Laws/Transmitter.lean ====
section
/-! SUPPORT. The per-byte step: what each rule does, row by row of 42_transmitter.md R146, and that the byte instructions are that
step. -/

namespace Sys2Proof.Machine

@[simp] theorem processByte_settled (b : Byte) (rule : Session → Session) (σ : Session) (h : σ.finished = true) :
    σ.processByte b rule = σ := by simp [Session.processByte, h]

theorem processByte_running (b : Byte) (rule : Session → Session) (σ : Session) (h : σ.finished = false) :
    σ.processByte b rule = { rule σ with prev := some b } := by simp [Session.processByte, h]

@[simp] theorem stepByte_settled (P : Params) (σ : Session) (b : Byte) (h : σ.finished = true) : stepByte P σ b = σ := by
  simp [stepByte, h]

/-- R164, R144: a chunk after settle changes nothing. -/
theorem runChunk_settled (P : Params) (c : Bytes) (σ : Session) (h : σ.finished = true) : runChunk P c σ = σ := by
  have hf : c.foldl (stepByte P) σ = σ := by
    induction c with
    | nil => rfl
    | cons b c ih => rw [List.foldl_cons, stepByte_settled P σ b h, ih]
  rw [runChunk, hf, Session.requestRead_settled σ h]

/-- R137 with a further packet behind the acknowledged one. -/
theorem ackData_next (σ : Session) (h : σ.cursor + 1 < σ.queue.length) :
    ackData σ =
      { σ with
        written := min (σ.cursor * chunkSize) σ.total
        cursor := σ.cursor + 1
        outq := σ.outq ++ [σ.frameAt (σ.cursor + 1)]
        emitted := σ.emitted ++ [.progress (percent (min (σ.cursor * chunkSize) σ.total) σ.total),
          .write (σ.frameAt (σ.cursor + 1))] } := by
  simp only [ackData, Session.emit_cursor, Session.emit_queue, h, if_true]
  simp [Session.send, Session.emit, Session.frameAt]

/-- R137 with R138: the last data packet is acknowledged and the EOT phase begins. -/
theorem ackData_last (σ : Session) (h : σ.queue.length ≤ σ.cursor + 1) :
    ackData σ =
      { σ with
        written := min (σ.cursor * chunkSize) σ.total
        cursor := σ.cursor + 1
        armed := false
        active := false
        outq := σ.outq ++ [bareEot]
        emitted := σ.emitted ++ [.progress (percent (min (σ.cursor * chunkSize) σ.total) σ.total), .write bareEot] } := by
  simp only [ackData, Session.emit_cursor, Session.emit_queue, Nat.not_lt.mpr h, if_false]
  simp [Session.send, Session.emit, Session.disarm]

/-- Everything a processed byte's rule can do to a running session, row by row of R146. -/
theorem ruleOf_cases (P : Params) (b : Byte) (σ : Session) :
    (b = ctlC ∧ σ.queue.length ≤ σ.cursor ∧ ruleOf P b σ = (σ.send bareEot).disarm) ∨
    (b = ctlC ∧ σ.cursor < σ.queue.length ∧ σ.prev ≠ some ctlC ∧ ruleOf P b σ = (σ.send (σ.frameAt σ.cursor)).arm) ∨
    (b = ctlC ∧ σ.cursor < σ.queue.length ∧ σ.prev = some ctlC ∧ ruleOf P b σ = σ) ∨
    (b = ctlAck ∧ σ.active = false ∧ ruleOf P b σ = σ.teardown .ackInactive) ∨
    (b = ctlAck ∧ σ.active = true ∧ σ.armed = true ∧ σ.cursor = 0 ∧ ruleOf P b σ = { σ with cursor := 1 }) ∨
    (b = ctlAck ∧ σ.active = true ∧ σ.armed = true ∧ 0 < σ.cursor ∧ σ.cursor < σ.queue.length ∧ ruleOf P b σ = ackData σ) ∨
    (b = ctlAck ∧ σ.active = true ∧ σ.armed = true ∧ 0 < σ.cursor ∧ σ.cursor = σ.queue.length ∧
      ruleOf P b σ = σ.disarm.send bareEot) ∨
    (b = ctlAck ∧ σ.active = true ∧ (σ.armed = false ∨ σ.queue.length < σ.cursor) ∧ ruleOf P b σ = σ) ∨
    (b = ctlNak ∧ σ.cursor < σ.queue.length ∧ ruleOf P b σ = σ.send (σ.frameAt σ.cursor)) ∨
    (b = ctlNak ∧ σ.queue.length ≤ σ.cursor ∧ P.eotRetx = .bare ∧ ruleOf P b σ = σ.send bareEot) ∨
    (b = ctlNak ∧ σ.queue.length ≤ σ.cursor ∧ P.eotRetx = .frame ∧ ruleOf P b σ = σ.send P.eotFrame) ∨
    (b = ctlCa ∧ ruleOf P b σ = σ.teardown .cancel) ∨
    (isControl b = false ∧ ruleOf P b σ = σ) := by
  by_cases hC : b = ctlC
  · subst hC
    have h0 : ruleOf P ctlC σ = ruleC σ := rfl
    rw [h0, ruleC]
    by_cases h1 : σ.queue.length ≤ σ.cursor
    · simp [h1]
    · by_cases h2 : σ.prev = some ctlC <;> simp [h1, h2, Nat.not_le.mp h1]
  by_cases hA : b = ctlAck
  · subst hA
    have h0 : ruleOf P ctlAck σ = ruleAck σ := rfl
    rw [h0, ruleAck]
    cases h1 : σ.active
    · simp
    cases h2 : σ.armed
    · simp
    rcases Nat.eq_zero_or_pos σ.cursor with h3 | h3
    · simp [h3]
    rcases Nat.lt_trichotomy σ.cursor σ.queue.length with h4 | h4 | h4
    · simp [h3, h4, Nat.ne_of_gt h3]
    · have h5 : σ.queue.length ≠ 0 := by omega
      have h6 : 0 < σ.queue.length := by omega
      simp [h4, h5, h6]
    · have h5 : ¬σ.cursor < σ.queue.length := by omega
      simp [h4, h5, Nat.ne_of_gt h3, Nat.ne_of_gt h4]
  by_cases hN : b = ctlNak
  · subst hN
    have h0 : ruleOf P ctlNak σ = ruleNak P σ := rfl
    rw [h0, ruleNak]
    by_cases h1 : σ.cursor < σ.queue.length
    · simp [h1]
    · cases h2 : P.eotRetx <;> simp [h1, Nat.not_lt.mp h1]
  by_cases hX : b = ctlCa
  · subst hX
    have h0 : ruleOf P ctlCa σ = ruleCa σ := rfl
    rw [h0, ruleCa]
    simp
  · simp [isControl, ruleOf, hC, hA, hN, hX]

/-- Every byte, decoded and executed, is the per-byte step of the session at the selected ports. -/
theorem exec_decodeByte (s : State) (b : Byte) :
    exec (decodeByte b) s = .next (s.onSession fun σ => stepByte s.params σ b) := by
  unfold decodeByte stepByte ruleOf
  by_cases h1 : b = ctlC
  · subst h1; rfl
  by_cases h2 : b = ctlAck
  · subst h2; rfl
  by_cases h3 : b = ctlNak
  · subst h3; rfl
  by_cases h4 : b = ctlCa
  · subst h4; rfl
  · simp only [h1, h2, h3, h4, if_false]; rfl

/-- Every inbound instruction is the decoding of a byte, with the same effect. -/
theorem exec_byte (s : State) (i : Instr) (hw : i.wellFormed = true) (hp : i.isPort = false) :
    ∃ b, decodeByte b = i ∧ exec i s = .next (s.onSession fun σ => stepByte s.params σ b) := by
  have key : ∀ b, decodeByte b = i → ∃ b, decodeByte b = i ∧ exec i s = .next (s.onSession fun σ => stepByte s.params σ b) :=
    fun b h => ⟨b, h, h ▸ exec_decodeByte s b⟩
  cases i with
  | c => exact key ctlC rfl
  | ack => exact key ctlAck rfl
  | nak => exact key ctlNak rfl
  | ca => exact key ctlCa rfl
  | other b =>
    refine key b ?_
    simp only [Instr.wellFormed, isControl, Bool.not_eq_true', Bool.or_eq_false_iff, beq_eq_false_iff_ne] at hw
    simp [decodeByte, hw.1.1.1, hw.1.1.2, hw.1.2, hw.2]
  | _ => exact Bool.noConfusion hp

end Sys2Proof.Machine
end

