-- ==== Sys2Proof/Laws/Exec.lean ====
section
/-! SUPPORT. Everything an instruction can do when it answers a next state, and the induction every rule about sessions goes
through: what holds of one byte, one read request and one settling holds of every event. -/

namespace Sys2Proof.Machine

/-- What an event does to the session at its ports. -/
inductive SessionMove (P : Params) : Session → Session → Prop where
  | byte (σ : Session) (b : Byte) : SessionMove P σ (stepByte P σ b)
  | chunk (σ : Session) (c : Bytes) : SessionMove P σ (runChunk P c σ)
  | other (σ : Session) (b : Byte) : SessionMove P σ (σ.processByte b id)
  | endOfStream (σ : Session) : SessionMove P σ (σ.teardown .endOfStream)
  | failure (σ : Session) (kind : ErrorKind) : SessionMove P σ (σ.abort kind)
  | stay (σ : Session) : SessionMove P σ σ

/-- START on a free stream with metadata that fits creates the session (R162), whatever MAX_FILE. -/
theorem execStart_accepted (s : State) (stream : Stream) (name data : Bytes) (hb : s.busy stream = false)
    (hf : name.length + (decText data.length).length + 2 ≤ 128) :
    execStart stream name data s = .next ((s.putSession stream (newSession name data)).answer .accepted) := by
  simp only [execStart, (checkStart_none_iff s stream name data).mpr ⟨hb, hf⟩]

/-- START refused by R198 changes only the answer. -/
theorem execStart_refused (s : State) (stream : Stream) (name data : Bytes) (code : PortRefusal)
    (h : checkStart s stream name data = some code) :
    execStart stream name data s = .next (s.answer (.refused code)) := by
  simp only [execStart, h]

/-- Everything a next state can be: an answer, a new session on a free stream, or a move of the session at the selected ports. -/
theorem exec_next_cases (i : Instr) (s t : State) (h : exec i s = .next t) :
    (∃ r, t = s.answer r) ∨
    (∃ stream name data, i = .start stream name data ∧ s.busy stream = false ∧
      name.length + (decText data.length).length + 2 ≤ 128 ∧
      t = (s.putSession stream (newSession name data)).answer .accepted) ∨
    (startStream? i = none ∧ ∃ f, t = s.onSession f ∧ ∀ σ, SessionMove s.params σ (f σ)) := by
  have move : startStream? i = none → ∀ f, (∀ σ, SessionMove s.params σ (f σ)) →
      (Host.Outcome.next (s.onSession f) : Host.Outcome State Fault Refusal) = .next t →
      (∃ r, t = s.answer r) ∨
      (∃ stream name data, i = .start stream name data ∧ s.busy stream = false ∧
        name.length + (decText data.length).length + 2 ≤ 128 ∧
        t = (s.putSession stream (newSession name data)).answer .accepted) ∨
      (startStream? i = none ∧ ∃ f, t = s.onSession f ∧ ∀ σ, SessionMove s.params σ (f σ)) := by
    intro hi f hf ht
    exact .inr (.inr ⟨hi, f, by injection ht with ht; exact ht.symm, hf⟩)
  cases i with
  | c => exact move rfl _ (fun σ => SessionMove.byte σ ctlC) h
  | ack => exact move rfl _ (fun σ => SessionMove.byte σ ctlAck) h
  | nak => exact move rfl _ (fun σ => SessionMove.byte σ ctlNak) h
  | ca => exact move rfl _ (fun σ => SessionMove.byte σ ctlCa) h
  | other b => exact move rfl _ (fun σ => SessionMove.other σ b) h
  | inChunk c => exact move rfl _ (fun σ => SessionMove.chunk σ c) h
  | inEos => exact move rfl _ (fun σ => SessionMove.endOfStream σ) h
  | readFail => exact move rfl _ (fun σ => SessionMove.failure σ _) h
  | writeFail => exact move rfl _ (fun σ => SessionMove.failure σ _) h
  | writeDone =>
    refine move rfl id (fun σ => SessionMove.stay σ) ?_
    rw [State.onSession_of_fixed s id (fun _ _ => rfl)]
    exact h
  | start stream name data =>
    simp only [exec, execStart] at h
    split at h
    · injection h with h; exact .inl ⟨_, h.symm⟩
    · next hc =>
      obtain ⟨hb, hf⟩ := (checkStart_none_iff _ _ _ _).mp hc
      injection h with h; exact .inr (.inl ⟨_, _, _, rfl, hb, hf, h.symm⟩)
  | crc16 buf start length seed =>
    simp only [exec, execCrc16] at h
    split at h <;> (injection h with h; exact .inl ⟨_, h.symm⟩)
  | split data =>
    simp only [exec, execSplit] at h
    injection h with h; exact .inl ⟨_, h.symm⟩
  | buildHeader name size =>
    simp only [exec, execBuildHeader] at h
    split at h <;> (injection h with h; exact .inl ⟨_, h.symm⟩)
  | buildData chunk seq fin =>
    simp only [exec, execBuildData] at h
    split at h <;> (injection h with h; exact .inl ⟨_, h.symm⟩)
  | buildEot =>
    simp only [exec, execBuildEot] at h
    injection h with h; exact .inl ⟨_, h.symm⟩

/-- A reflexive and transitive relation that every rule, PREV write, read request and settling of a session respects holds across
every move. -/
theorem SessionMove.rel {P : Params} {Q : Session → Session → Prop} (refl : ∀ σ, Q σ σ)
    (trans : ∀ a b c, Q a b → Q b c → Q a c) (byte : ∀ σ b, Q σ (stepByte P σ b))
    (prev : ∀ σ b, σ.finished = false → Q σ { σ with prev := some b })
    (req : ∀ σ, Q σ σ.requestRead) (eos : ∀ σ, Q σ (σ.teardown .endOfStream)) (fail : ∀ σ kind, Q σ (σ.abort kind))
    {σ τ : Session} (h : SessionMove P σ τ) : Q σ τ := by
  cases h with
  | byte b => exact byte _ _
  | chunk c =>
    have fold : ∀ (c : Bytes) (σ : Session), Q σ (c.foldl (stepByte P) σ) := by
      intro c
      induction c with
      | nil => exact fun σ => refl σ
      | cons b c ih => exact fun σ => trans _ _ _ (byte σ b) (ih _)
    exact trans _ _ _ (fold c _) (req _)
  | other b =>
    cases hf : σ.finished with
    | true => rw [processByte_settled _ _ _ hf]; exact refl _
    | false => rw [processByte_running _ _ _ hf]; exact prev _ _ hf
  | endOfStream => exact eos _
  | failure kind => exact fail _ _
  | stay => exact refl _

/-- Where a session goes: for every event but a START on its stream, it makes a move or stays. -/
theorem exec_session (i : Instr) (s t : State) (k : Stream) (σ : Session) (h : exec i s = .next t)
    (hk : startStream? i ≠ some k) (hσ : s.session? k = some σ) :
    ∃ τ, t.session? k = some τ ∧ SessionMove s.params σ τ := by
  rcases exec_next_cases i s t h with ⟨r, rfl⟩ | ⟨stream, name, data, rfl, -, -, rfl⟩ | ⟨-, f, rfl, hf⟩
  · exact ⟨σ, hσ, .stay σ⟩
  · have hne : k ≠ stream := fun e => hk (by rw [e]; rfl)
    exact ⟨σ, by rw [State.answer_session?, State.putSession_other _ _ _ _ hne, hσ], .stay σ⟩
  · by_cases e : k = s.sel
    · subst e
      exact ⟨f σ, by rw [State.onSession_same, hσ]; rfl, hf σ⟩
    · exact ⟨σ, by rw [State.onSession_other _ _ _ e, hσ], .stay σ⟩

end Sys2Proof.Machine
end

