-- ==== Sys2Proof/Laws/PerInstr.lean ====
section
/-! SUPPORT. The per-instruction family CodeWidth: an inbound instruction is one byte (30_encoding.md R70) and a port operation has no
bytes (R84). -/

namespace Sys2Proof.Laws.CodeWidth

/-- The number of bytes in the encoding of an instruction. -/
def Statement (i : Instr) : Prop := (encode i).length = if i.isPort then 0 else 1

theorem c : Statement .c := rfl

theorem ack : Statement .ack := rfl

theorem nak : Statement .nak := rfl

theorem ca : Statement .ca := rfl

theorem other (b : Byte) : Statement (.other b) := rfl

theorem start (stream : Stream) (name data : Bytes) : Statement (.start stream name data) := rfl

theorem crc16 (buf : Bytes) (start length seed : Nat) : Statement (.crc16 buf start length seed) := rfl

theorem split (data : Bytes) : Statement (.split data) := rfl

theorem buildHeader (name : Bytes) (size : Nat) : Statement (.buildHeader name size) := rfl

theorem buildData (chunk : Bytes) (seq : Nat) (isFinal : Bool) : Statement (.buildData chunk seq isFinal) := rfl

theorem buildEot : Statement .buildEot := rfl

theorem inChunk (chunk : Bytes) : Statement (.inChunk chunk) := rfl

theorem inEos : Statement .inEos := rfl

theorem readFail : Statement .readFail := rfl

theorem writeFail : Statement .writeFail := rfl

theorem writeDone : Statement .writeDone := rfl

end Sys2Proof.Laws.CodeWidth
end

