-- ==== Sys2Proof/Laws/Step.lean ====
section
/-! SUPPORT. Everything a step can do when it answers a next state, and runs of several steps. -/

namespace Sys2Proof.Machine

/-- A step either waits or executes one instruction at the ports of some stream. -/
theorem step_next_cases (s t : State) (h : step s = .next t) :
    t = s ∨ ∃ i stream left, exec i (s.takeAt stream left) = .next t := by
  unfold step at h
  split at h
  · injection h with h; exact .inl h.symm
  · split at h <;> exact .inr ⟨_, _, _, h⟩
  · split at h
    · exact .inr ⟨_, _, _, h⟩
    · cases h

/-- A run of one more step. -/
theorem run_succ (n : Nat) (s t : State) (h : step s = .next t) :
    Host.Core.run Sys2Proof.core (n + 1) s = Host.Core.run Sys2Proof.core n t := by
  have h' : Sys2Proof.core.step s = .next t := h
  simp only [Host.Core.run, h']

end Sys2Proof.Machine
end

