-- ==== Sys2Proof/Tests/Slice0.lean ====
section
/-! SUPPORT. Tests. Expected values are those of 95_test_vectors.md (its identifiers are given) or are written out by hand from the
rules. The theorems test_witness_… show, for each obligation with hypotheses, concrete values that meet them together. -/

namespace Sys2Proof.Tests

open Sys2Proof Sys2Proof.Machine

/-! Helpers. -/

def bareParams : Params := { eotRetx := .bare, eotTail := [], maxFile := none }

def frameParams : Params := { eotRetx := .frame, eotTail := [0x00#8, 0x00#8], maxFile := none }

/-- One session on stream 0, whose ports are selected. -/
def one (P : Params) (σ : Session) : State := { params := P, sessions := [(0, σ)], sel := 0, reply := .none, inputs := [] }

/-- No session anywhere. -/
def empty (P : Params) : State := { params := P, sessions := [], sel := 0, reply := .none, inputs := [] }

/-- A session of "f", 1100 bytes, with stand-ins of one byte for its three frames, data packet 1 outstanding. -/
def demo : Session :=
  { name := [0x66#8], total := 1100, queue := [[0xA0#8], [0xA1#8], [0xA2#8]], cursor := 1, active := true, armed := true,
    finished := false, written := 0, prev := some 0x43#8, readHeld := true, result := none, outq := [], emitted := [.readReq] }

/-- The same session in the EOT phase. -/
def demoEnd : Session := { demo with cursor := 3, active := false, armed := false, written := 1100 }

/-- The same session before the first byte. -/
def demoIdle : Session := { demo with cursor := 0, active := false, armed := false, prev := none }

/-- The same session settled by a CA. -/
def demoDone : Session :=
  { demo with
    finished := true, readHeld := false, result := some (.outcome [0x66#8] 1100 0 .cancel)
    emitted := [.readReq, .readRelease, .result (.outcome [0x66#8] 1100 0 .cancel)] }

/-- The session on stream 0 after a step. -/
def after (o : Host.Outcome State Fault Refusal) : Option Session :=
  match o with
  | .next t => t.session? 0
  | .fault _ => none
  | .refused _ => none

/-- What the step returned. -/
def replyOf (o : Host.Outcome State Fault Refusal) : Option Reply :=
  match o with
  | .next t => some t.reply
  | .fault _ => none
  | .refused _ => none

/-- The registers a byte can change, but for the settlement, and the output events. -/
structure Regs where
  cursor : Nat
  active : Bool
  armed : Bool
  prev : Option Byte
  written : Nat
  outq : List Bytes
  emitted : List OutEvent
  deriving DecidableEq, Repr

def regs (o : Host.Outcome State Fault Refusal) : Option Regs :=
  (after o).map fun σ => ⟨σ.cursor, σ.active, σ.armed, σ.prev, σ.written, σ.outq, σ.emitted⟩

/-- `pat(n)` of 95_test_vectors.md. -/
def pat (n : Nat) : Bytes := (List.range n).map (BitVec.ofNat 8)

/-! WellFormed: OTHER is not one of the four control bytes (R71). -/

theorem test_wellFormed_refuses_other_C : (Instr.other 0x43#8).wellFormed = false := by decide

theorem test_wellFormed_refuses_other_ACK : (Instr.other 0x06#8).wellFormed = false := by decide

theorem test_wellFormed_refuses_other_NAK : (Instr.other 0x15#8).wellFormed = false := by decide

theorem test_wellFormed_refuses_other_CA : (Instr.other 0x18#8).wellFormed = false := by decide

theorem test_wellFormed_takes_other_EOT : (Instr.other 0x04#8).wellFormed = true := by decide

/-! Decode: each row's bits from the table of R71. -/

theorem test_decode_C : decode [0b01000011#8] = .ok (.c, []) := by rfl

theorem test_decode_ACK : decode [0b00000110#8, 0x43#8] = .ok (.ack, [0x43#8]) := by rfl

theorem test_decode_NAK : decode [0b00010101#8] = .ok (.nak, []) := by rfl

theorem test_decode_CA : decode [0b00011000#8] = .ok (.ca, []) := by rfl

theorem test_decode_OTHER : decode [0b00000001#8] = .ok (.other 0x01#8, []) := by rfl

theorem test_decode_needs_a_byte : decode [] = .error .noByte := by rfl

theorem test_decodeTableWord_reads_low_byte : decodeTableWord 8 0x115 = some .nak := by decide

/-! The inbound bytes. -/

/-- T18: after a byte of no meaning, C sends data packet 1 again. -/
theorem test_c_resends_after_other : regs (exec .c (one bareParams { demo with prev := some 0x04#8 })) =
    some ⟨1, true, true, some 0x43#8, 0, [[0xA1#8]], [.readReq, .write [0xA1#8]]⟩ := by decide

/-- T9: at the end of the queue a repeated C sends the bare EOT. -/
theorem test_c_at_end_repeats_eot : regs (exec .c (one bareParams demoEnd)) =
    some ⟨3, false, false, some 0x43#8, 1100, [[0x04#8]], [.readReq, .write [0x04#8]]⟩ := by decide

/-- T7: 1024 of 1100 bytes are 93 percent, then data packet 2. -/
theorem test_ack_progress_then_next : regs (exec .ack (one bareParams demo)) =
    some ⟨2, true, true, some 0x06#8, 1024, [[0xA2#8]], [.readReq, .progress 93, .write [0xA2#8]]⟩ := by decide +kernel

/-- T6: the ACK of the last data packet: PROGRESS 100, then the EOT, both flags cleared. -/
theorem test_ack_last_sends_eot : regs (exec .ack (one bareParams { demo with total := 3, queue := [[0xA0#8], [0xA1#8]] })) =
    some ⟨2, false, false, some 0x06#8, 3, [[0x04#8]], [.readReq, .progress 100, .write [0x04#8]]⟩ := by decide +kernel

/-- T14: a NAK in Idle sends the header and leaves the flags. -/
theorem test_nak_in_idle_leaves_flags : regs (exec .nak (one bareParams demoIdle)) =
    some ⟨0, false, false, some 0x15#8, 0, [[0xA0#8]], [.readReq, .write [0xA0#8]]⟩ := by decide

/-- T15, FRAME: the EOT frame, here 04 00 00. -/
theorem test_nak_at_end_frame : regs (exec .nak (one frameParams demoEnd)) =
    some ⟨3, false, false, some 0x15#8, 1100, [[0x04#8, 0x00#8, 0x00#8]], [.readReq, .write [0x04#8, 0x00#8, 0x00#8]]⟩ := by decide

/-- T16: cancel with 1024 bytes acknowledged; the cursor and the flags stay, and PREV is the settling byte. -/
theorem test_ca_outcome : (after (exec .ca (one bareParams { demo with cursor := 2, written := 1024 }))).map
      (fun σ => (σ.result, σ.readHeld, σ.cursor, σ.prev)) =
    some (some (.outcome [0x66#8] 1100 1024 .cancel), false, 2, some 0x18#8) := by decide

/-- T17: an inbound 0x04 only writes PREV. -/
theorem test_other_writes_prev : after (exec (.other 0x04#8) (one bareParams demo)) = some { demo with prev := some 0x04#8 } := by
  decide

/-- T19: after settle PREV stays. -/
theorem test_other_after_settle : after (exec (.other 0x04#8) (one bareParams demoDone)) = some demoDone := by decide

/-! START and the session events. -/

set_option maxRecDepth 20000 in
/-- S2: the queue of ("a", 0 bytes) is its header, with the CRC 3E 5B of vector F-H. -/
theorem test_start_empty_file : (after (exec (.start 0 [0x61#8] []) (empty bareParams))).map (fun σ => (σ.queue, σ.emitted)) =
    some ([[0x01#8, 0x00#8, 0xFF#8, 0x61#8, 0x00#8, 0x30#8, 0x20#8] ++ List.replicate 124 0x00#8 ++ [0x3E#8, 0x5B#8]],
      [.readReq]) := by decide +kernel

/-- S4: a running session is not disturbed. -/
theorem test_start_busy : (after (exec (.start 0 [] []) (one bareParams demo)), replyOf (exec (.start 0 [] []) (one bareParams demo))) =
    (some demo, some (.refused (.streamBusy 0))) := by decide

/-- P7 in one chunk: C, 0x58, C, C sends the header twice, and one READ_REQ follows the chunk. -/
theorem test_inChunk_duplicate_polls : regs (exec (.inChunk [0x43#8, 0x58#8, 0x43#8, 0x43#8]) (one bareParams demoIdle)) =
    some ⟨0, true, true, some 0x43#8, 0, [[0xA0#8], [0xA0#8]],
      [.readReq, .write [0xA0#8], .write [0xA0#8], .readReq]⟩ := by decide

/-- P14: the bytes after the CA are discarded, and no READ_REQ follows. -/
theorem test_inChunk_after_cancel : regs (exec (.inChunk [0x43#8, 0x18#8, 0x43#8, 0x06#8]) (one bareParams demoIdle)) =
    some ⟨0, true, true, some 0x18#8, 0, [[0xA0#8]],
      [.readReq, .write [0xA0#8], .readRelease, .result (.outcome [0x66#8] 1100 0 .cancel)]⟩ := by decide

/-- S7. -/
theorem test_inEos_outcome : (after (exec .inEos (one bareParams demo))).map (fun σ => (σ.emitted, σ.prev)) =
    some ([.readReq, .readRelease, .result (.outcome [0x66#8] 1100 0 .endOfStream)], some 0x43#8) := by decide

/-- S8. -/
theorem test_readFail_aborts : (after (exec .readFail (one bareParams demo))).map Session.result =
    some (some (.error .transportRead)) := by decide

/-- S9. -/
theorem test_writeFail_aborts : (after (exec .writeFail (one bareParams demo))).map (fun σ => (σ.emitted, σ.readHeld)) =
    some ([.readReq, .readRelease, .result (.error .transportWrite)], false) := by decide

/-- S10: the outcome stands. -/
theorem test_writeFail_after_settle : after (exec .writeFail (one bareParams demoDone)) = some demoDone := by decide

/-- S12. -/
theorem test_writeDone_nothing : after (exec .writeDone (one bareParams demo)) = some demo := by decide

/-! The checksum engine and the framer. -/

/-- E2: "123456789" gives 31C3. -/
theorem test_crc16_check_value :
    replyOf (exec (.crc16 [0x31#8, 0x32#8, 0x33#8, 0x34#8, 0x35#8, 0x36#8, 0x37#8, 0x38#8, 0x39#8] 0 9 0) (empty bareParams)) =
      some (.crc 0x31C3#16) := by decide +kernel

/-- F-C2: the same string with seed FFFF gives 29B1. -/
theorem test_crc16_seeded :
    replyOf (exec (.crc16 [0x31#8, 0x32#8, 0x33#8, 0x34#8, 0x35#8, 0x36#8, 0x37#8, 0x38#8, 0x39#8] 0 9 0xFFFF) (empty bareParams)) =
      some (.crc 0x29B1#16) := by decide +kernel

set_option maxRecDepth 20000 in
/-- F-S1: 1025 bytes give chunks of 1024 and 1. -/
theorem test_split_1025 : (splitData (pat 1025)).map List.length = [1024, 1] := by decide +kernel

set_option maxRecDepth 20000 in
/-- F-H: "hi.txt", 3. -/
theorem test_buildHeader_hi : replyOf (exec (.buildHeader [0x68#8, 0x69#8, 0x2E#8, 0x74#8, 0x78#8, 0x74#8] 3) (empty bareParams)) =
    some (.frame ([0x01#8, 0x00#8, 0xFF#8, 0x68#8, 0x69#8, 0x2E#8, 0x74#8, 0x78#8, 0x74#8, 0x00#8, 0x33#8, 0x20#8] ++
      List.replicate 119 0x00#8 ++ [0xBA#8, 0x67#8])) := by decide +kernel

/-- F-H: 126 name bytes do not fit. -/
theorem test_buildHeader_overflow : replyOf (exec (.buildHeader (List.replicate 126 0x6E#8) 0) (empty bareParams)) =
    some (.refused (.headerOverflow 129)) := by decide +kernel

set_option maxRecDepth 20000 in
/-- F-D: "ABC", sequence 1. -/
theorem test_buildData_abc : replyOf (exec (.buildData [0x41#8, 0x42#8, 0x43#8] 1 true) (empty bareParams)) =
    some (.frame ([0x01#8, 0x01#8, 0xFE#8, 0x41#8, 0x42#8, 0x43#8] ++ List.replicate 125 0x1A#8 ++ [0x41#8, 0x4B#8])) := by
  decide +kernel

set_option maxRecDepth 100000 in
/-- F-D: 129 bytes of "Z" take a large frame, and its trailer is 48 A2. -/
theorem test_buildData_129 :
    let f := dataFrame (List.replicate 129 0x5A#8) 7 true
    (f.take 3, f.drop 1027) = ([0x02#8, 0x07#8, 0xF8#8], [0x48#8, 0xA2#8]) := by decide +kernel

/-- F-E, with the example bytes 04 00 00. -/
theorem test_buildEot : replyOf (exec .buildEot (empty frameParams)) = some (.frame [0x04#8, 0x00#8, 0x00#8]) := by decide

/-- R181's codes. -/
theorem test_codes : [ErrorKind.transportRead.code, ErrorKind.transportWrite.code, (PortRefusal.headerOverflow 129).code,
    (PortRefusal.streamBusy 0).code, (PortRefusal.crcRange 0 1 0).code, (PortRefusal.crcSeed 65536).code,
    (PortRefusal.chunkSize 0).code] = [1, 2, 16, 17, 32, 32, 33] := by decide

/-! The step, and programs in the notation of R85. -/

/-- The first step after `withFetchWord` runs the word: a NAK sends the header. -/
theorem test_withFetchWord_runs_nak :
    (match step ((empty bareParams).withFetchWord 8 0x15) with
      | .next t => (t.session? 0).map (fun σ => (σ.prev, σ.outq.length))
      | .fault _ => none
      | .refused _ => none) = some (some 0x15#8, 1) := by decide +kernel

/-- P11: `START("hi.txt", "ABC") ; C ACK | C | WFAIL | ACK`. -/
def programP11 : Program :=
  { stream := 0, name := [0x68#8, 0x69#8], data := [0x41#8, 0x42#8, 0x43#8]
    words := [.byte 0x43#8, .byte 0x06#8, .cut, .byte 0x43#8, .cut, .wfail, .cut, .byte 0x06#8] }

theorem test_program_P11_inputs : programP11.inputs =
    [.port 0 (.start 0 [0x68#8, 0x69#8] [0x41#8, 0x42#8, 0x43#8]), .bytes 0 [0x43#8, 0x06#8], .bytes 0 [0x43#8],
      .port 0 .writeFail, .bytes 0 [0x06#8]] := by decide

theorem test_program_P11_encoding : programP11.encoding = [0x43#8, 0x06#8, 0x43#8, 0x06#8] := by decide

theorem test_writeNames : [WriteName.h, .d 2, .eot, .eotf].map (WriteName.bytes frameParams demo) =
    [[0xA0#8], [0xA2#8], [0x04#8], [0x04#8, 0x00#8, 0x00#8]] := by decide

/-! Witnesses: encoding and the step. -/

theorem test_witness_EveryByteDecodesByTheTable : (0x44#8 : Byte) ≠ 0x43#8 ∧ (0x44#8 : Byte) ≠ 0x06#8 ∧
    (0x44#8 : Byte) ≠ 0x15#8 ∧ (0x44#8 : Byte) ≠ 0x18#8 := by decide

theorem test_witness_DecodeEncodeAgree : (Instr.c.wellFormed = true ∧ Instr.c.isPort = false) ∧
    ((Instr.other 0xFF#8).wellFormed = true ∧ (Instr.other 0xFF#8).isPort = false) := by decide

theorem test_witness_StepRunsDecodedByte :
    ({ one bareParams demo with inputs := [.bytes 0 [0x15#8, 0x06#8]] } : State).inputs = .bytes 0 [0x15#8, 0x06#8] :: [] ∧
    decode [0x15#8, 0x06#8] = .ok (.nak, [0x06#8]) ∧ Instr.nak.wellFormed = true := ⟨rfl, rfl, rfl⟩

theorem test_witness_StepTakesPortEvent :
    (({ one bareParams demo with inputs := [.port 1 .inEos] } : State).inputs = .port 1 .inEos :: [] ∧ Instr.inEos.isPort = true) ∧
    (({ one bareParams demo with inputs := [.port 1 .c] } : State).inputs = .port 1 .c :: [] ∧ Instr.c.isPort = false) :=
  ⟨⟨rfl, rfl⟩, ⟨rfl, rfl⟩⟩

theorem test_witness_StepWaitsWithNothingPending : (one bareParams demo).inputs = [] ∧
    ({ one bareParams demo with inputs := [.bytes 0 []] } : State).inputs = .bytes 0 [] :: [] := ⟨rfl, rfl⟩

/-! Witnesses: START. -/

/-- A name of 125 bytes and an empty file just fit, on a stream with no session or a settled one. -/
theorem test_witness_StartCreatesSession :
    (empty bareParams).busy 0 = false ∧ (one bareParams demoDone).busy 0 = false ∧
    (List.replicate 125 0x6E#8).length + (decText ([] : Bytes).length).length + 2 ≤ 128 := ⟨rfl, rfl, by decide +kernel⟩

theorem test_witness_QueueHoldsBuiltFrames :
    (empty bareParams).busy 0 = false ∧ (([0x61#8] : Bytes).length + (decText ([0x41#8] : Bytes).length).length + 2 ≤ 128) ∧
    (splitData [0x41#8])[1 - 1]? = some [0x41#8] := ⟨rfl, by decide +kernel, by decide⟩

/-- The second clause, about every later event. -/
theorem test_witness_QueueHoldsBuiltFrames_later :
    (∃ t, exec .ack (one bareParams demo) = .next t) ∧ startStream? .ack ≠ some 0 ∧
    (one bareParams demo).session? 0 = some demo := ⟨⟨_, rfl⟩, by decide, rfl⟩

/-- The refused STARTs of the second clause: a busy stream, and metadata of 129 bytes. -/
theorem test_witness_StartCreatesSession_refused :
    (one bareParams demo).busy 0 = true ∧
    128 < (List.replicate 126 0x6E#8).length + (decText ([] : Bytes).length).length + 2 := ⟨rfl, by decide +kernel⟩

theorem test_witness_StartRefusals :
    ((one bareParams demo).session? 0 = some demo ∧ demo.finished = false) ∧
    ((∀ σ, (empty bareParams).session? 0 = some σ → σ.finished = true) ∧
      128 < (List.replicate 126 0x6E#8).length + (decText ([] : Bytes).length).length + 2) ∧
    (∀ σ, (one bareParams demoDone).session? 0 = some σ → σ.finished = true) :=
  ⟨⟨rfl, rfl⟩, ⟨fun _ h => (by cases h), by decide +kernel⟩, fun _ h => (Option.some.inj h) ▸ rfl⟩

/-- A file one byte over MAX_FILE. -/
theorem test_witness_MaxFileBoundsNothing :
    (empty { bareParams with maxFile := some 2 }).busy 0 = false ∧
    ([0x61#8] : Bytes).length + (decText ([0x41#8, 0x42#8, 0x43#8] : Bytes).length).length + 2 ≤ 128 ∧
    (empty { bareParams with maxFile := some 2 }).params.maxFile = some 2 ∧ 2 < ([0x41#8, 0x42#8, 0x43#8] : Bytes).length := by
  decide +kernel

/-! Witnesses: the checksum engine and the framer. -/

theorem test_witness_Crc16BitwiseResult :
    (1 + 1 ≤ ([0x00#8, 0x01#8] : Bytes).length ∧ 0xFFFF ≤ 0xFFFF) ∧ (([0x00#8, 0x01#8] : Bytes).length < 1 + 2) ∧
    (1 + 1 ≤ ([0x00#8, 0x01#8] : Bytes).length ∧ 0xFFFF < 0x10000) := by decide

theorem test_witness_CrcByteStepFormAgrees : 0 + 2 ≤ ([0x00#8, 0x01#8] : Bytes).length ∧ 0 ≤ 0xFFFF := by decide

theorem test_witness_CrcSegmentation : 0 + 1 + 1 ≤ ([0x00#8, 0x01#8] : Bytes).length := by decide

/-- Two chunks: the first is not the last, the second is. -/
theorem test_witness_SplitResult : ∃ c d : Bytes, (splitData (List.replicate 1025 0x00#8))[0]? = some c ∧
    (splitData (List.replicate 1025 0x00#8))[1]? = some d ∧ 0 + 1 < (splitData (List.replicate 1025 0x00#8)).length ∧
    1 + 1 = (splitData (List.replicate 1025 0x00#8)).length := by
  have h : (splitData (List.replicate 1025 0x00#8)).length = 2 := by rw [length_splitData, List.length_replicate]; rfl
  refine ⟨_, _, List.getElem?_eq_getElem (by omega), List.getElem?_eq_getElem (by omega), by omega, by omega⟩

theorem test_witness_SplitRoundTrip : 1 ≤ 1 ∧ (splitData [0x41#8])[1 - 1]? = some [0x41#8] := by decide

theorem test_witness_DecimalText : (10 : Nat) ≠ 0 ∧ decText 10 = [0x31#8, 0x30#8] := by decide

/-- 120 name bytes and four digits fit, 125 and one fill the payload, 126 and one do not fit. -/
theorem test_witness_BuildHeaderResult :
    128 < (List.replicate 126 0x6E#8).length + (decText 0).length + 2 ∧
    (List.replicate 120 0x6E#8).length + (decText 1100).length + 2 ≤ 128 ∧
    (List.replicate 125 0x6E#8).length + (decText 0).length + 2 = 128 := by decide +kernel

theorem test_witness_HeaderOverflowRefused :
    128 < (List.replicate 126 0x6E#8).length + (decText 0).length + 2 ∧ (empty bareParams).busy 0 = false := by decide +kernel

theorem test_witness_HeaderParseBack :
    0x00#8 ∉ ([0x66#8, 0x2E#8] : Bytes) ∧ ([0x66#8, 0x2E#8] : Bytes).length + (decText 1100).length + 2 ≤ 128 := by decide +kernel

theorem test_witness_BuildDataResult :
    (1 ≤ (List.replicate 128 0x5A#8).length ∧ (List.replicate 128 0x5A#8).length ≤ 128) ∧
    (128 < (List.replicate 129 0x5A#8).length ∧ (List.replicate 1024 0x5A#8).length ≤ 1024) ∧
    (([] : Bytes).length = 0 ∧ 1024 < (List.replicate 1025 0x5A#8).length) := by
  simp only [List.length_replicate]; decide

theorem test_witness_ChunkSizeRefused :
    (([] : Bytes).length = 0 ∧ 1024 < (List.replicate 1025 0x00#8).length) ∧ [0x41#8] ∈ splitData [0x41#8] :=
  ⟨⟨rfl, by simp only [List.length_replicate]; decide⟩, by decide⟩

theorem test_witness_FrameLengths :
    (([] : Bytes).length + (decText 5).length + 2 ≤ 128) ∧ (1 ≤ ([0x41#8] : Bytes).length ∧ ([0x41#8] : Bytes).length ≤ 128) ∧
    (128 < (List.replicate 129 0x00#8).length ∧ (List.replicate 129 0x00#8).length ≤ 1024) := by
  simp only [List.length_replicate]; decide

/-! Witnesses: the inbound bytes. -/

theorem test_witness_PollAtQueueEndSendsEot :
    (one bareParams demoEnd).session? (one bareParams demoEnd).sel = some demoEnd ∧ demoEnd.finished = false ∧
    demoEnd.queue.length ≤ demoEnd.cursor := by decide

theorem test_witness_PollSendsPacketAtCursor :
    (one bareParams demoIdle).session? (one bareParams demoIdle).sel = some demoIdle ∧ demoIdle.finished = false ∧
    demoIdle.queue[demoIdle.cursor]? = some [0xA0#8] ∧ demoIdle.prev ≠ some 0x43#8 := by decide

theorem test_witness_DuplicatePollSuppressed :
    (one bareParams demo).session? (one bareParams demo).sel = some demo ∧ demo.finished = false ∧
    demo.cursor < demo.queue.length ∧ demo.prev = some 0x43#8 := by decide

theorem test_witness_AckInactiveTearsDown :
    (one bareParams demoIdle).session? (one bareParams demoIdle).sel = some demoIdle ∧ demoIdle.finished = false ∧
    demoIdle.active = false := by decide

theorem test_witness_AckOfHeaderAdvances :
    let σ := { demo with cursor := 0 }
    (one bareParams σ).session? (one bareParams σ).sel = some σ ∧ σ.finished = false ∧ σ.active = true ∧ σ.armed = true ∧
    σ.cursor = 0 := by decide

/-- A packet behind the one acknowledged, and none. -/
theorem test_witness_AckOfDataAdvances :
    let σ := { demo with cursor := 2 }
    ((one bareParams demo).session? (one bareParams demo).sel = some demo ∧ demo.finished = false ∧ demo.active = true ∧
      demo.armed = true ∧ 0 < demo.cursor ∧ demo.cursor < demo.queue.length ∧ 0 < demo.total ∧
      demo.queue[demo.cursor + 1]? = some [0xA2#8]) ∧
    ((one bareParams σ).session? (one bareParams σ).sel = some σ ∧ σ.finished = false ∧ σ.active = true ∧ σ.armed = true ∧
      0 < σ.cursor ∧ σ.cursor < σ.queue.length ∧ 0 < σ.total ∧ σ.cursor + 1 = σ.queue.length) := by decide

/-- The header of a 0-byte file has been acknowledged. -/
theorem test_witness_AckArmedAtEndSendsEot :
    let σ := { demo with queue := [[0xA0#8]], total := 0 }
    (one bareParams σ).session? (one bareParams σ).sel = some σ ∧ σ.finished = false ∧ σ.active = true ∧ σ.armed = true ∧
    0 < σ.cursor ∧ σ.cursor = σ.queue.length := by decide

theorem test_witness_AckUnarmedDoesNothing :
    let σ := { demo with armed := false }
    (one bareParams σ).session? (one bareParams σ).sel = some σ ∧ σ.finished = false ∧ σ.active = true ∧ σ.armed = false := by
  decide

/-- The packet at the cursor, the bare EOT and the EOT frame. -/
theorem test_witness_NakResends :
    ((one bareParams demo).session? 0 = some demo ∧ demo.finished = false ∧ demo.queue[demo.cursor]? = some [0xA1#8]) ∧
    ((one bareParams demoEnd).session? 0 = some demoEnd ∧ demoEnd.finished = false ∧ demoEnd.queue.length ≤ demoEnd.cursor ∧
      (one bareParams demoEnd).params.eotRetx = .bare) ∧
    ((one frameParams demoEnd).session? 0 = some demoEnd ∧ (one frameParams demoEnd).params.eotRetx = .frame ∧
      (one frameParams demoEnd).params.eotFrame = [0x04#8, 0x00#8, 0x00#8]) := by decide

theorem test_witness_CancelTearsDown :
    (one bareParams demo).session? (one bareParams demo).sel = some demo ∧ demo.finished = false := by decide

theorem test_witness_OtherByteOnlyRecordsPrev : (Instr.other 0x04#8).wellFormed = true ∧
    (one bareParams demo).session? (one bareParams demo).sel = some demo ∧ demo.finished = false := by decide

theorem test_witness_BytesAfterSettleDiscarded :
    (one bareParams demoDone).session? (one bareParams demoDone).sel = some demoDone ∧ demoDone.finished = true := by decide

theorem test_witness_EventsAfterSettleDiscarded :
    ((one bareParams demoDone).session? (one bareParams demoDone).sel = some demoDone ∧ demoDone.finished = true) ∧
    ((∃ c, Instr.inChunk [0x43#8] = .inChunk c) ∨ Instr.inChunk [0x43#8] = .inEos) := ⟨by decide, .inl ⟨_, rfl⟩⟩

theorem test_witness_EventsWithoutSessionDiscarded :
    (empty bareParams).session? (empty bareParams).sel = none ∧ (Instr.ack.isPort = false) := by decide

theorem test_witness_SendsAreQueuePackets :
    (one bareParams demo).session? (one bareParams demo).sel = some demo ∧
    ∃ t, exec (decodeByte 0x15#8) (one bareParams demo) = .next t := ⟨rfl, _, rfl⟩

/-! Witnesses: the session's events and the whole machine. -/

theorem test_witness_ChunkRunsItsBytesInOrder :
    (one bareParams demo).session? (one bareParams demo).sel = some demo ∧ demo.finished = false := by decide

theorem test_witness_ChunkCutsCarryNoMeaning :
    (one bareParams demoIdle).session? (one bareParams demoIdle).sel = some demoIdle := by decide

theorem test_witness_EndOfStreamTearsDown :
    (one bareParams demoEnd).session? (one bareParams demoEnd).sel = some demoEnd ∧ demoEnd.finished = false := by decide

theorem test_witness_TransportFailureAborts :
    (one bareParams demo).session? (one bareParams demo).sel = some demo ∧ demo.finished = false ∧
    (Instr.readFail = .readFail ∧ ErrorKind.transportRead = .transportRead) ∧
    (Instr.writeFail = .writeFail ∧ ErrorKind.transportWrite = .transportWrite) := by decide

theorem test_witness_RefusalsChangeNothing : (empty bareParams).reply ≠ .refused (.crcRange 0 1 0) ∧
    replyOf (exec (.crc16 [] 0 1 0) (empty bareParams)) = some (.refused (.crcRange 0 1 0)) := by decide

/-- A session that meets the invariant: START of ("a", one byte), whose packet has just been acknowledged. -/
def acked : Session :=
  { newSession [0x61#8] [0x41#8] with
    cursor := 2, written := 1, prev := some 0x06#8
    outq := buildQueue [0x61#8] [0x41#8] ++ [bareEot]
    emitted := [.readReq] ++ (buildQueue [0x61#8] [0x41#8]).map .write ++ [.progress 100, .write bareEot] }

theorem test_inv_acked : acked.Inv bareParams where
  cursorLe := by decide
  flagsAgree := rfl
  inactiveEnds := fun _ => .inr (by decide)
  activeAtEnd := fun h => by cases h
  writtenEq := by decide
  finishedResult := rfl
  finishedHeld := rfl
  queueLength := by decide
  queueHeader := rfl
  queuePackets := by
    intro k f hk
    match k, hk with
    | 0, hk => exact ⟨soh, headerPayload [0x61#8] 1, (Option.some.inj hk).symm, .inl ⟨rfl, length_headerPayload [0x61#8] 1 (by decide +kernel)⟩⟩
    | 1, hk =>
      have hf : f = dataFrame [0x41#8] 1 true := (Option.some.inj hk).symm
      exact ⟨_, _, hf, .inl ⟨by decide, by rw [length_dataPayload _ (by decide)]; rfl⟩⟩
    | k + 2, hk => cases hk
  writesKnown := by
    intro f hf
    rcases List.mem_append.mp hf with h | h
    · exact .inl h
    · exact .inr (.inl (List.mem_singleton.mp h))
  outqWrites := rfl
  progressEach := by decide
  settledOnce := ⟨acked.emitted, rfl, rfl⟩
  outcomeFields := fun _ _ _ _ h => by cases h

/-- The state that holds it, and an ACK, then a NAK, to come. -/
def ackedState : State := { one bareParams acked with inputs := [.bytes 0 [0x06#8, 0x15#8]] }

theorem test_witness_StepKeepsInvariant : ackedState.Inv ∧ ∃ t, step ackedState = .next t := by
  refine ⟨⟨rfl, ?_⟩, _, rfl⟩
  intro k σ h
  match k, h with
  | 0, h => exact Option.some.inj h ▸ test_inv_acked
  | k + 1, h => cases h

theorem test_witness_NamedStateIsDefined :
    (demoDone.finished = true) ∧ (demoIdle.finished = false ∧ demoIdle.active = false ∧ demoIdle.cursor = 0) ∧
    (demoEnd.finished = false ∧ demoEnd.active = false ∧ demoEnd.cursor ≠ 0 ∧ demoEnd.cursor = demoEnd.queue.length) ∧
    (({ demo with cursor := 0 } : Session).finished = false ∧ demo.active = true ∧ demo.armed = true) ∧
    (demo.finished = false ∧ 1 ≤ demo.cursor) := by decide

theorem test_witness_RegistersOnlyGrow :
    ackedState.Inv ∧ (∃ t, exec .nak ackedState = .next t) ∧ startStream? .nak ≠ some 0 ∧ ackedState.session? 0 = some acked :=
  ⟨test_witness_StepKeepsInvariant.1, ⟨_, rfl⟩, by decide, rfl⟩

theorem test_witness_SettledSessionFrozen :
    (∃ t, exec .ca (one bareParams demoDone) = .next t) ∧ startStream? .ca ≠ some 0 ∧
    (one bareParams demoDone).session? 0 = some demoDone ∧ demoDone.finished = true := ⟨⟨_, rfl⟩, by decide, rfl, rfl⟩

/-- One event that settles the session, and one that does not. -/
theorem test_witness_SettlesOnceReleaseFirst :
    startStream? .ca ≠ some 0 ∧ (one bareParams demo).session? 0 = some demo ∧ demo.finished = false ∧
    (after (exec .ca (one bareParams demo))).map Session.finished = some true ∧
    (after (exec .nak (one bareParams demo))).map Session.finished = some false := by decide

theorem test_witness_ProgressNeverDecreases :
    acked.Inv bareParams ∧ acked.cursor = acked.queue.length ∧ 0 < acked.total := ⟨test_inv_acked, by decide, by decide⟩

theorem test_witness_WriteLengthByFirstByte :
    acked.Inv bareParams ∧ bareParams.eotRetx = .bare ∧ bareEot ∈ acked.outq :=
  ⟨test_inv_acked, rfl, List.mem_append_right _ (List.mem_singleton.mpr rfl)⟩

theorem test_witness_EveryPacketPassesItsCrc :
    acked.Inv bareParams ∧ acked.queue[0]? = some (headerFrame [0x61#8] 1) := ⟨test_inv_acked, rfl⟩

/-- A byte at stream 0 beside a session on stream 1, and two states that differ only on stream 1. -/
theorem test_witness_StreamsAreIsolated :
    let s : State := { one bareParams demo with sessions := [(0, demo), (1, demoIdle)] }
    let s' : State := one bareParams demo
    (∃ t, exec .nak s = .next t) ∧ (1 : Stream) ≠ s.sel ∧ startStream? .nak ≠ some 1 ∧
    s.params = s'.params ∧ s.sel = s'.sel ∧ s.session? 0 = s'.session? 0 ∧ (∃ t, exec .nak s' = .next t) :=
  ⟨⟨_, rfl⟩, by decide, by decide, rfl, rfl, rfl, ⟨_, rfl⟩⟩

theorem test_witness_ParametersNeverChange : ∃ t, step ackedState = .next t := ⟨_, rfl⟩

theorem test_witness_ByteStepsRefineTheChunk : ackedState.inputs = .bytes 0 [0x06#8, 0x15#8] :: [] := rfl

end Sys2Proof.Tests
end

section
/-! SUPPORT. The named state (10_state.md R31), line by line of its table, and O51. -/

namespace Sys2Proof.Machine

theorem Session.namedState_done (σ : Session) (hf : σ.finished = true) : σ.namedState = some .done := by
  simp [Session.namedState, hf]

theorem Session.namedState_idle (σ : Session) (hf : σ.finished = false) (ha : σ.active = false) (hc : σ.cursor = 0) :
    σ.namedState = some .idle := by
  simp [Session.namedState, hf, ha, hc]

theorem Session.namedState_awaitingFinalAck (σ : Session) (hf : σ.finished = false) (ha : σ.active = false)
    (h0 : σ.cursor ≠ 0) (hc : σ.cursor = σ.queue.length) : σ.namedState = some .awaitingFinalAck := by
  simp [Session.namedState, hf, ha, h0, ← hc]

theorem Session.namedState_started (σ : Session) (hf : σ.finished = false) (ha : σ.active = true) (hr : σ.armed = true)
    (hc : σ.cursor = 0) : σ.namedState = some .started := by
  simp [Session.namedState, hf, ha, hr, hc]

theorem Session.namedState_transmitting (σ : Session) (hf : σ.finished = false) (ha : σ.active = true)
    (hr : σ.armed = true) (hc : 1 ≤ σ.cursor) : σ.namedState = some .transmitting := by
  simp [Session.namedState, hf, ha, hr, hc, Nat.ne_of_gt hc]

/-- `Closing` is the interior of the atomic teardown, on no line of `state()`. -/
theorem Session.namedState_ne_closing (σ : Session) : σ.namedState ≠ some .closing := by
  unfold Session.namedState
  repeat' split
  all_goals simp

/-- Under the invariant the lines leave nothing out: an inactive session stands at one end of its queue (R36 item 3), an active one
is armed (item 2). -/
theorem Session.Inv.namedState_ne_none {P : Params} {σ : Session} (h : σ.Inv P) : σ.namedState ≠ none := by
  cases hf : σ.finished with
  | true => simp [σ.namedState_done hf]
  | false =>
    cases ha : σ.active with
    | false =>
      by_cases h0 : σ.cursor = 0
      · simp [σ.namedState_idle hf ha h0]
      · have hc : σ.cursor = σ.queue.length := (h.inactiveEnds ha).resolve_left h0
        simp [σ.namedState_awaitingFinalAck hf ha h0 hc]
    | true =>
      have hr : σ.armed = true := h.flagsAgree.trans ha
      rcases Nat.eq_zero_or_pos σ.cursor with hc | hc
      · simp [σ.namedState_started hf ha hr hc]
      · simp [σ.namedState_transmitting hf ha hr hc]

end Sys2Proof.Machine

open Sys2Proof Sys2Proof.Machine

/-- Settles O51, line by line of R31; that some line matches is R36 items 2 and 3. -/
theorem namedStateIsDefined : Obligations.NamedStateIsDefined := fun σ =>
  ⟨σ.namedState_done, σ.namedState_idle, σ.namedState_awaitingFinalAck, σ.namedState_started, σ.namedState_transmitting,
    σ.namedState_ne_closing, fun _ h => h.namedState_ne_none⟩
end

section
/-! SUPPORT. The queue: the port operations that return its entries, the first byte of every entry, that no move of a session
changes it, and O9. -/

namespace Sys2Proof.Machine

/-! The port operations on operands that pass their checks. -/

theorem exec_split (s : State) (data : Bytes) :
    exec (.split data) s = .next (s.answer (.chunks (splitData data))) := rfl

theorem exec_buildHeader_fits (s : State) (name : Bytes) (size : Nat)
    (hf : name.length + (decText size).length + 2 ≤ 128) :
    exec (.buildHeader name size) s = .next (s.answer (.frame (headerFrame name size))) := by
  simp only [exec, execBuildHeader, checkHeader_none name size hf]

theorem exec_buildData_fits (s : State) (chunk : Bytes) (seq : Nat) (isFinal : Bool) (h1 : 1 ≤ chunk.length)
    (h2 : chunk.length ≤ 1024) :
    exec (.buildData chunk seq isFinal) s = .next (s.answer (.frame (dataFrame chunk seq isFinal))) := by
  simp only [exec, execBuildData, checkChunk_none chunk h1 h2]

/-- R117 never refuses a chunk of SPLIT. -/
theorem exec_buildData_splitData (s : State) (data chunk : Bytes) (i seq : Nat) (isFinal : Bool)
    (h : (splitData data)[i]? = some chunk) :
    exec (.buildData chunk seq isFinal) s = .next (s.answer (.frame (dataFrame chunk seq isFinal))) := by
  obtain ⟨hlen, hlt⟩ := splitData_chunk data i chunk h
  exact exec_buildData_fits s chunk seq isFinal (by omega) (by omega)

/-! The first byte of a queue entry. -/

@[simp] theorem head?_assembleFrame (marker : Byte) (k : Nat) (payload : Bytes) :
    (assembleFrame marker k payload).head? = some marker := rfl

theorem dataMarker_ne_eot (chunk : Bytes) : dataMarker chunk ≠ eot := by
  unfold dataMarker
  split <;> decide

theorem head?_headerFrame_ne_eot (name : Bytes) (size : Nat) : (headerFrame name size).head? ≠ some eot := by
  rw [headerFrame, head?_assembleFrame]
  decide

theorem head?_dataFrame_ne_eot (chunk : Bytes) (seq : Nat) (isFinal : Bool) :
    (dataFrame chunk seq isFinal).head? ≠ some eot := by
  rw [dataFrame, head?_assembleFrame]
  exact fun h => dataMarker_ne_eot chunk (Option.some.inj h)

/-- No queue entry begins as an EOT does. -/
theorem head?_ne_eot_of_mem_buildQueue {name data f : Bytes} (h : f ∈ buildQueue name data) : f.head? ≠ some eot := by
  simp only [buildQueue, List.mem_cons, List.mem_map] at h
  obtain rfl | ⟨_, _, rfl⟩ := h
  · exact head?_headerFrame_ne_eot _ _
  · exact head?_dataFrame_ne_eot _ _ _

/-! No move of a session changes its queue. -/

@[simp] theorem Session.settle_queue (σ : Session) (r : Result) : (σ.settle r).queue = σ.queue := by
  cases h : σ.finished with
  | true => rw [σ.settle_settled r h]
  | false => rw [σ.settle_running r h]

@[simp] theorem Session.teardown_queue (σ : Session) (cause : Cause) : (σ.teardown cause).queue = σ.queue :=
  σ.settle_queue _

@[simp] theorem Session.abort_queue (σ : Session) (kind : ErrorKind) : (σ.abort kind).queue = σ.queue :=
  σ.settle_queue _

@[simp] theorem Session.requestRead_queue (σ : Session) : σ.requestRead.queue = σ.queue := by
  cases h : σ.finished with
  | true => rw [σ.requestRead_settled h]
  | false => rw [σ.requestRead_running h, σ.emit_queue]

@[simp] theorem ackData_queue (σ : Session) : (ackData σ).queue = σ.queue := by
  rcases Nat.lt_or_ge (σ.cursor + 1) σ.queue.length with h | h
  · rw [ackData_next σ h]
  · rw [ackData_last σ h]

@[simp] theorem ruleOf_queue (P : Params) (b : Byte) (σ : Session) : (ruleOf P b σ).queue = σ.queue := by
  rcases ruleOf_cases P b σ with
    ⟨-, -, h⟩ | ⟨-, -, -, h⟩ | ⟨-, -, -, h⟩ | ⟨-, -, h⟩ | ⟨-, -, -, -, h⟩ | ⟨-, -, -, -, -, h⟩ | ⟨-, -, -, -, -, h⟩ |
    ⟨-, -, -, h⟩ | ⟨-, -, h⟩ | ⟨-, -, -, h⟩ | ⟨-, -, -, h⟩ | ⟨-, h⟩ | ⟨-, h⟩
  all_goals simp [h]

@[simp] theorem stepByte_queue (P : Params) (σ : Session) (b : Byte) : (stepByte P σ b).queue = σ.queue := by
  cases h : σ.finished with
  | true => rw [stepByte_settled P σ b h]
  | false => rw [stepByte, processByte_running b _ σ h, ruleOf_queue]

theorem SessionMove.queue_eq {P : Params} {σ τ : Session} (h : SessionMove P σ τ) : τ.queue = σ.queue :=
  SessionMove.rel (Q := fun σ τ => τ.queue = σ.queue) (refl := fun _ => rfl) (trans := fun _ _ _ hab hbc => hbc.trans hab)
    (byte := fun σ b => stepByte_queue P σ b) (prev := fun _ _ _ => rfl) (req := Session.requestRead_queue)
    (eos := fun σ => σ.teardown_queue _) (fail := Session.abort_queue) h

end Sys2Proof.Machine

open Sys2Proof Sys2Proof.Machine

/-- Settles O9: the entries are `buildQueue`'s, each read against the port operation of R113 or R115; later events are moves of the
session, and no move changes the queue. -/
theorem queueHoldsBuiltFrames : Obligations.QueueHoldsBuiltFrames := by
  refine ⟨fun s u stream name data hb hf => ?_, fun s t i k σ h hk hσ => ?_⟩
  · refine ⟨_, newSession name data, splitData data, execStart_accepted s stream name data hb hf,
      State.putSession_same _ _ _, exec_split u data, length_splitData data, ?_,
      ⟨_, rfl, exec_buildHeader_fits u name data.length hf⟩, fun j c hj hc => ?_,
      fun f hmem => head?_ne_eot_of_mem_buildQueue hmem⟩
    · exact (length_buildQueue name data).trans (by rw [length_splitData])
    · exact ⟨_, buildQueue_chunk name data j hj c hc, exec_buildData_splitData u data c (j - 1) j _ hc⟩
  · obtain ⟨τ, hτ, hmove⟩ := exec_session i s t k σ h hk hσ
    exact ⟨τ, hτ, hmove.queue_eq⟩
end

section
/-! SUPPORT. The encoding (30_encoding.md): the rows of the decoder's table (R71), the sequence and complement bytes of a queue
index as numbers (R79), and O2 and O26. -/

namespace Sys2Proof

/-! The rows of R71, one lemma each. -/

@[simp] theorem decodeByte_ctlC : decodeByte ctlC = .c := rfl

@[simp] theorem decodeByte_ctlAck : decodeByte ctlAck = .ack := rfl

@[simp] theorem decodeByte_ctlNak : decodeByte ctlNak = .nak := rfl

@[simp] theorem decodeByte_ctlCa : decodeByte ctlCa = .ca := rfl

/-- The catch-all row, matched last (R87). -/
theorem decodeByte_other {b : Byte} (hc : b ≠ ctlC) (hack : b ≠ ctlAck) (hnak : b ≠ ctlNak) (hca : b ≠ ctlCa) :
    decodeByte b = .other b := by
  rw [decodeByte, if_neg hc, if_neg hack, if_neg hnak, if_neg hca]

end Sys2Proof

namespace Sys2Proof.Machine

/-! The two bytes of R79. -/

@[simp] theorem toNat_seqByte (k : Nat) : (seqByte k).toNat = k % 256 := BitVec.toNat_ofNat k 8

/-- The complement byte is the bitwise complement: `0xFF - x` never borrows. -/
theorem compByte_eq_not (k : Nat) : compByte k = ~~~ seqByte k :=
  BitVec.allOnes_sub_eq_not (seqByte k)

@[simp] theorem toNat_compByte (k : Nat) : (compByte k).toNat = 255 - k % 256 := by
  rw [compByte_eq_not, BitVec.toNat_not, toNat_seqByte]

theorem seqByte_add_compByte (k : Nat) : (seqByte k).toNat + (compByte k).toNat = 0xFF := by
  rw [toNat_seqByte, toNat_compByte]
  omega

/-- The sequence byte wraps: only the index modulo 256 counts. -/
theorem seqByte_mod (k : Nat) : seqByte (k % 256) = seqByte k :=
  BitVec.eq_of_toNat_eq (by simp)

theorem seqByte_mul_256 (m : Nat) : seqByte (256 * m) = 0x00#8 := by
  rw [← seqByte_mod, Nat.mul_mod_right]
  rfl

theorem compByte_mul_256 (m : Nat) : compByte (256 * m) = 0xFF#8 := by
  rw [compByte, seqByte_mul_256]
  rfl

end Sys2Proof.Machine

open Sys2Proof Sys2Proof.Machine

/-- Settles O2: the instruction is `decodeByte b`, read off row by row. -/
theorem everyByteDecodesByTheTable : Obligations.EveryByteDecodesByTheTable := by
  intro b rest
  refine ⟨decodeByte b, decode_cons b rest, ?_, ?_, ?_, ?_, decodeByte_other⟩
  · rintro rfl; exact decodeByte_ctlC
  · rintro rfl; exact decodeByte_ctlAck
  · rintro rfl; exact decodeByte_ctlNak
  · rintro rfl; exact decodeByte_ctlCa

/-- Settles O26: the bytes of every index as numbers, then the multiples of 256 by the wrap, and index 255 by evaluation. -/
theorem sequenceBytesWrap : Obligations.SequenceBytesWrap :=
  ⟨fun k => ⟨toNat_seqByte k, toNat_compByte k, seqByte_add_compByte k, compByte_eq_not k⟩,
    fun m => ⟨seqByte_mul_256 m, compByte_mul_256 m⟩, rfl, rfl⟩
end

section
/-! SUPPORT. The checksum engine (40_checksum.md): the byte step as shift and table lookup, on which R101 and R106 turn, the port
operation CRC16 on the operands each of its checks meets (R100, R102), and O12 to O16. -/

namespace Sys2Proof.Machine

/-! The bit steps. -/

theorem crcBits_eq_iterate (n : Nat) (r : U16) : crcBits n r = crcBit^[n] r := by
  induction n generalizing r with
  | zero => rfl
  | succ n ih => exact ih (crcBit r)

/-- R100's `repeat 8 times` as an iterate. -/
theorem crcByte_eq_iterate (r : U16) (v : Byte) : crcByte r v = crcBit^[8] (r ^^^ (v.setWidth 16 <<< 8)) :=
  crcBits_eq_iterate 8 _

/-- While no set bit reaches the top, the polynomial is never fed back and the steps only shift. -/
theorem crcBits_eq_shiftLeft (n : Nat) (r : U16) (h : r.toNat * 2 ^ n < 2 ^ 16) : crcBits n r = r <<< n := by
  induction n generalizing r with
  | zero => simp [crcBits]
  | succ n ih =>
    have hdouble : r.toNat * 2 * 2 ^ n < 2 ^ 16 := by rwa [Nat.mul_assoc, ← Nat.pow_succ']
    have hlt : r.toNat * 2 < 2 ^ 16 := Nat.lt_of_le_of_lt (Nat.le_mul_of_pos_right _ (Nat.two_pow_pos n)) hdouble
    have htop : r.getLsbD 15 = false := Nat.testBit_lt_two_pow (by omega)
    have hshift : (r <<< 1).toNat = r.toNat * 2 := by
      rw [BitVec.toNat_shiftLeft, Nat.shiftLeft_eq, Nat.pow_one, Nat.mod_eq_of_lt hlt]
    rw [crcBits, crcBit, htop, if_neg Bool.false_ne_true, ih (r <<< 1) (by rwa [hshift]), ← BitVec.shiftLeft_add,
      Nat.add_comm]

/-! The byte step as shift and table lookup, `(r << 8) ^ T[r[15:8] ^ v]`, for both forms. The table is the byte step from 0. -/

/-- Entering a byte splits the register: the low byte as it was, the high byte met by the byte entered. -/
theorem xor_setWidth_shiftLeft_eight (r : U16) (v : Byte) :
    r ^^^ (v.setWidth 16 <<< 8) = (loByte r).setWidth 16 ^^^ ((hiByte r ^^^ v).setWidth 16 <<< 8) := by
  refine BitVec.eq_of_getLsbD_eq fun i hi => ?_
  by_cases h : i < 8
  · simp [loByte, h, hi]
  · have hsub : i - 8 < 8 := by omega
    have hadd : 8 + (i - 8) = i := by omega
    simp [loByte, hiByte, h, hi, hsub, hadd]

theorem loByte_setWidth_shiftLeft_eight (r : U16) : (loByte r).setWidth 16 <<< 8 = r <<< 8 := by
  refine BitVec.eq_of_getLsbD_eq fun i hi => ?_
  by_cases h : i < 8
  · simp [h]
  · have hsub : i - 8 < 8 := by omega
    have hlt : i - 8 < 16 := by omega
    simp [loByte, h, hsub, hlt]

theorem hiByte_shiftLeft_eight (r : U16) : hiByte (r <<< 8) = loByte r := by
  refine BitVec.eq_of_getLsbD_eq fun i hi => ?_
  have hlt : i < 16 := by omega
  have hadd : 8 + i < 16 := by omega
  simp [loByte, hiByte, hi, hadd, BitVec.getLsbD_eq_getElem hlt]

/-- By linearity (`crcBits_xor`): the low byte only shifts, and the rest is the byte step of the table index from 0. -/
theorem crcByte_eq_table (r : U16) (v : Byte) : crcByte r v = (r <<< 8) ^^^ crcByte 0 (hiByte r ^^^ v) := by
  have hlo : crcBits 8 ((loByte r).setWidth 16) = r <<< 8 := by
    rw [crcBits_eq_shiftLeft 8 _ (by simp; omega), loByte_setWidth_shiftLeft_eight]
  rw [crcByte, xor_setWidth_shiftLeft_eight, crcBits_xor, hlo]
  exact congrArg _ (congrArg _ BitVec.zero_xor.symm)

theorem crcStep_eq_table (r : U16) (v : Byte) : crcStep r v = (r <<< 8) ^^^ crcStep 0 (hiByte r ^^^ v) := by
  have hhi : hiByte 0 ^^^ (hiByte r ^^^ v) = hiByte r ^^^ v := BitVec.zero_xor
  have hshift (x : U16) : ((0 : U16) <<< 8) ^^^ x = x := BitVec.zero_xor
  simp only [crcStep, hhi, hshift, BitVec.xor_assoc]

/-- The two forms have one table, read at all 256 entries. -/
theorem crcByte_zero_eq_crcStep_zero : ∀ x : Byte, crcByte 0 x = crcStep 0 x := by decide

/-- R101: the two forms agree, because both look the same byte up in the same table. -/
theorem crcByte_eq_crcStep (r : U16) (v : Byte) : crcByte r v = crcStep r v := by
  rw [crcByte_eq_table, crcStep_eq_table, crcByte_zero_eq_crcStep_zero]

theorem crcByte_zero_zero : crcByte 0 0x00#8 = 0 := rfl

/-- A byte equal to the register's high byte cancels it. -/
@[simp] theorem crcByte_hiByte (r : U16) : crcByte r (hiByte r) = r <<< 8 := by
  rw [crcByte_eq_table, BitVec.xor_self]
  exact BitVec.xor_zero

/-! Whole strings. -/

theorem crc16_all (d : Bytes) (seed : U16) : crc16 d 0 d.length seed = crcFold seed d := by
  rw [crc16, memRead_all]

/-- The two bytes of a register's value, high byte first, clear it. -/
theorem crcFold_trailer (r : U16) : crcFold r [hiByte r, loByte r] = 0 := by
  calc crcFold r [hiByte r, loByte r] = crcByte (r <<< 8) (hiByte (r <<< 8)) := by
        rw [crcFold_cons, crcFold_cons, crcFold_nil, crcByte_hiByte, hiByte_shiftLeft_eight]
    _ = r <<< 8 <<< 8 := crcByte_hiByte _
    _ = 0 := by rw [← BitVec.shiftLeft_add]; exact BitVec.shiftLeft_eq_zero (by decide)

/-- Zero bytes leave a zero register at zero. -/
@[simp] theorem crcFold_replicate_zero (k : Nat) : crcFold 0 (List.replicate k 0x00#8) = 0 := by
  induction k with
  | zero => rfl
  | succ k ih => rw [List.replicate_succ, crcFold_cons, crcByte_zero_zero, ih]

/-! The port operation. -/

theorem checkCrcArgs_range (buf : Bytes) (start length seed : Nat) (h : buf.length < start + length) :
    checkCrcArgs buf start length seed = some (.crcRange start length buf.length) := if_pos h

theorem checkCrcArgs_seed (buf : Bytes) (start length seed : Nat) (h : start + length ≤ buf.length) (hs : 0xFFFF < seed) :
    checkCrcArgs buf start length seed = some (.crcSeed seed) := by
  rw [checkCrcArgs, if_neg (Nat.not_lt.mpr h), if_pos hs]

theorem exec_crc16_accepted (s : State) (buf : Bytes) (start length seed : Nat) (h : start + length ≤ buf.length)
    (hs : seed ≤ 0xFFFF) :
    exec (.crc16 buf start length seed) s = .next (s.answer (.crc (crc16 buf start length (BitVec.ofNat 16 seed)))) := by
  simp only [exec, execCrc16, checkCrcArgs_none buf start length seed h hs]

theorem exec_crc16_refused (s : State) (buf : Bytes) (start length seed : Nat) (code : PortRefusal)
    (h : checkCrcArgs buf start length seed = some code) :
    exec (.crc16 buf start length seed) s = .next (s.answer (.refused code)) := by
  simp only [exec, execCrc16, h]

end Sys2Proof.Machine

open Sys2Proof Sys2Proof.Machine

/-- Settles O12: `crcByte` is R100's inner loop as an iterate; the refusals are the two tests of R102, in order. -/
theorem crc16BitwiseResult : Obligations.Crc16BitwiseResult := by
  intro s buf start length seed
  refine ⟨fun h hs => ?_, fun h => ?_, fun h hs => ?_⟩
  · rw [exec_crc16_accepted s buf start length seed h hs, crc16, crcFold, funext₂ crcByte_eq_iterate]
    rfl
  · exact exec_crc16_refused s buf start length seed _ (checkCrcArgs_range buf start length seed h)
  · exact exec_crc16_refused s buf start length seed _ (checkCrcArgs_seed buf start length seed h hs)

/-- Settles O13: the two byte steps are one function, so their folds are. -/
theorem crcByteStepFormAgrees : Obligations.CrcByteStepFormAgrees := by
  refine ⟨crcByte_eq_crcStep, fun s buf start length seed h hs => ?_⟩
  rw [exec_crc16_accepted s buf start length seed h hs, crc16, crcFold, funext₂ crcByte_eq_crcStep]
  rfl

/-- Settles O14: adjacent reads join, and the register after the first is the seed of the second. -/
theorem crcSegmentation : Obligations.CrcSegmentation := by
  refine ⟨fun buf start seed => ?_, fun buf start m n seed _ => ?_⟩
  · rw [crc16, memRead, List.take_zero, crcFold_nil]
  · rw [crc16, memRead_append, crcFold_append, crc16, crc16]

/-- Settles O15: after `d` the register holds the CRC, and its own two bytes clear it. -/
theorem crcResidueIsZero : Obligations.CrcResidueIsZero := by
  intro d
  have hlen : ∀ a b : Byte, d.length + 2 = (d ++ [a, b]).length := fun a b => by simp
  rw [hlen, crc16_all, crc16_all, crcFold_append, crcFold_trailer]

/-- Settles O16: the zero bytes in front leave the register at its seed 0. -/
theorem crcIgnoresLeadingZeros : Obligations.CrcIgnoresLeadingZeros := by
  refine ⟨fun k d => ?_, fun k => ?_⟩
  · have hlen : k + d.length = (List.replicate k 0x00#8 ++ d).length := by simp
    rw [hlen, crc16_all, crc16_all, crcFold_append, crcFold_replicate_zero]
  · have h := crc16_all (List.replicate k 0x00#8) 0
    rwa [List.length_replicate, crcFold_replicate_zero] at h
end

section
/-! SUPPORT. The framer's port operations (41_framer.md): SPLIT as reads of 1024 bytes, the payloads and frames byte by byte, when
each operand is refused, the lengths of a session's data frames, and O17, O18, O20, O21, O23, O24 and O27. -/

namespace Sys2Proof.Machine

/-! SPLIT. -/

/-- A read that runs past the end of the buffer stops there. -/
theorem memRead_clipped (buf : Bytes) (addr n : Nat) :
    memRead buf addr (min (addr + n) buf.length - addr) = memRead buf addr n := by
  rw [memRead, memRead, List.take_eq_take_iff, List.length_drop]
  omega

theorem memRead_eq_drop_take (buf : Bytes) (addr stop : Nat) :
    memRead buf addr (stop - addr) = (buf.take stop).drop addr := List.drop_take.symm

/-- The end of the last chunk needs no case of its own: it is where the file ends. -/
theorem splitData_eq_map_memRead (data : Bytes) :
    splitData data =
      (List.range (ceilDiv data.length chunkSize)).map fun i => memRead data (i * chunkSize) chunkSize := by
  simp only [splitData, memRead_clipped]

/-- Consecutive reads of one size join. -/
theorem flatten_map_memRead (buf : Bytes) (size n : Nat) :
    ((List.range n).map fun i => memRead buf (i * size) size).flatten = memRead buf 0 (n * size) := by
  induction n with
  | zero => simp [memRead]
  | succ n ih => rw [List.range_succ, List.map_append, List.flatten_append, ih, Nat.succ_mul, memRead_append]; simp

theorem le_ceilDiv_mul_chunkSize (n : Nat) : n ≤ ceilDiv n chunkSize * chunkSize := by
  simp only [ceilDiv, chunkSize]
  omega

/-- R121 for the splitter: the chunks are the file. -/
theorem flatten_splitData (data : Bytes) : (splitData data).flatten = data := by
  rw [splitData_eq_map_memRead, flatten_map_memRead, memRead, List.drop_zero]
  exact List.take_of_length_le (le_ceilDiv_mul_chunkSize _)

/-- The boundaries of chunk `i`, as R110 writes them. -/
theorem splitData_chunk_eq {data c : Bytes} {i : Nat} (h : (splitData data)[i]? = some c) :
    c = (data.take (min (i * 1024 + 1024) data.length)).drop (i * 1024) := by
  rw [getElem?_splitData] at h
  split at h
  · rw [← Option.some.inj h, memRead_eq_drop_take]; rfl
  · simp at h

/-- Every chunk but the last is full. -/
theorem length_splitData_chunk_inner {data c : Bytes} {i : Nat} (h : (splitData data)[i]? = some c)
    (hi : i + 1 < (splitData data).length) : c.length = 1024 := by
  obtain ⟨hlen, -⟩ := splitData_chunk data i c h
  simp only [length_splitData, ceilDiv, chunkSize] at hi
  omega

/-- The last chunk is what the full ones leave. -/
theorem length_splitData_chunk_last {data c : Bytes} {i : Nat} (h : (splitData data)[i]? = some c)
    (hi : i + 1 = (splitData data).length) : c.length = data.length - i * 1024 := by
  obtain ⟨hlen, -⟩ := splitData_chunk data i c h
  simp only [length_splitData, ceilDiv, chunkSize] at hi
  omega

theorem length_splitData_chunk_bounds {data c : Bytes} {i : Nat} (h : (splitData data)[i]? = some c) :
    1 ≤ c.length ∧ c.length ≤ 1024 := by
  obtain ⟨hlen, hlt⟩ := splitData_chunk data i c h
  omega

/-! Frames, byte by byte. -/

/-- Format F (R73), with the CRC over a payload of known length. -/
theorem assembleFrame_eq (marker : Byte) (k : Nat) {payload : Bytes} {n : Nat} (h : payload.length = n) :
    assembleFrame marker k payload = [marker, seqByte k, compByte k] ++ payload ++
      [hiByte (crc16 payload 0 n 0), loByte (crc16 payload 0 n 0)] := by
  rw [← h]; rfl

/-- The payload stands at offset 3. -/
theorem drop_three_assembleFrame (marker : Byte) (k : Nat) (payload : Bytes) :
    (assembleFrame marker k payload).drop 3 = payload ++ crcTrailer payload := rfl

theorem take_drop_three_assembleFrame (marker : Byte) (k : Nat) {payload : Bytes} {n : Nat} (h : payload.length = n) :
    ((assembleFrame marker k payload).drop 3).take n = payload := by
  rw [drop_three_assembleFrame, List.take_left' h]

/-- R121 for the data frame: the chunk stands in front of the padding. -/
theorem take_drop_three_dataFrame (chunk : Bytes) (seq : Nat) (isFinal : Bool) :
    ((dataFrame chunk seq isFinal).drop 3).take chunk.length = chunk := by
  rw [dataFrame, drop_three_assembleFrame, dataPayload, List.append_assoc, List.take_left]

theorem headerPayload_eq_meta_append (name : Bytes) (size : Nat) :
    headerPayload name size =
      headerMeta name size ++ List.replicate (128 - (headerMeta name size).length) 0x00#8 := by
  rw [headerPayload, memWrite, List.take_zero, List.nil_append, Nat.zero_add, List.drop_replicate]
  rfl

theorem dataMarker_small {chunk : Bytes} (h : chunk.length ≤ 128) : dataMarker chunk = 0x01#8 := by
  rw [dataMarker, frameSize_small chunk h]; rfl

theorem dataMarker_large {chunk : Bytes} (h : 128 < chunk.length) : dataMarker chunk = 0x02#8 := by
  rw [dataMarker, frameSize_large chunk h]; rfl

theorem compByte_eq_ofNat (k : Nat) : compByte k = BitVec.ofNat 8 (255 - k % 256) :=
  BitVec.eq_of_toNat_eq (by rw [toNat_compByte, BitVec.toNat_ofNat]; omega)

/-! Lengths. -/

theorem length_headerFrame {name : Bytes} {size : Nat} (h : name.length + (decText size).length + 2 ≤ 128) :
    (headerFrame name size).length = 133 := by
  rw [headerFrame, length_assembleFrame, length_headerPayload name size h]

theorem length_dataFrame {chunk : Bytes} (h : chunk.length ≤ 1024) (seq : Nat) (isFinal : Bool) :
    (dataFrame chunk seq isFinal).length = frameSize chunk + 5 := by
  rw [dataFrame, length_assembleFrame, length_dataPayload chunk h]

theorem length_dataFrame_small {chunk : Bytes} (h : chunk.length ≤ 128) (seq : Nat) (isFinal : Bool) :
    (dataFrame chunk seq isFinal).length = 133 := by
  rw [length_dataFrame (by omega), frameSize_small chunk h]

theorem length_dataFrame_large {chunk : Bytes} (h : 128 < chunk.length) (h' : chunk.length ≤ 1024) (seq : Nat)
    (isFinal : Bool) : (dataFrame chunk seq isFinal).length = 1029 := by
  rw [length_dataFrame h', frameSize_large chunk h]

/-- The length of data frame `i + 1` of the queue, by whether its chunk is the last. -/
theorem length_dataFrame_splitData {data c : Bytes} {i : Nat} (h : (splitData data)[i]? = some c) (seq : Nat)
    (isFinal : Bool) :
    (i + 1 < (splitData data).length → (dataFrame c seq isFinal).length = 1029) ∧
    ((dataFrame c seq isFinal).length = 133 ∨ (dataFrame c seq isFinal).length = 1029) := by
  obtain ⟨-, hle⟩ := length_splitData_chunk_bounds h
  refine ⟨fun hi => ?_, ?_⟩
  · exact length_dataFrame_large (by rw [length_splitData_chunk_inner h hi]; omega) hle _ _
  · rcases Nat.lt_or_ge 128 c.length with hlarge | hsmall
    · exact .inr (length_dataFrame_large hlarge hle _ _)
    · exact .inl (length_dataFrame_small hsmall _ _)

/-- Every data frame of a non-empty file but the last has 1029 bytes. -/
theorem map_length_dataFrames (name : Bytes) {data : Bytes} (h : 1 ≤ data.length) :
    ∃ last, (last = 133 ∨ last = 1029) ∧ ((buildQueue name data).drop 1).map List.length =
      List.replicate ((splitData data).length - 1) 1029 ++ [last] := by
  obtain ⟨m, hm⟩ : ∃ m, (splitData data).length = m + 1 := Nat.exists_eq_add_one.mpr <| by
    simp only [length_splitData, ceilDiv, chunkSize]; omega
  have hchunk (j : Nat) (hj : j < m + 1) : (splitData data)[j]? = some ((splitData data).getD j []) := by
    rw [List.getD_eq_getElem?_getD, List.getElem?_eq_getElem (hm ▸ hj), Option.getD_some]
  have hinner : ∀ j ∈ List.range m,
      (dataFrame ((splitData data).getD j []) (j + 1) (j + 1 == m + 1)).length = 1029 := fun j hj => by
    have hj : j < m := List.mem_range.mp hj
    exact (length_dataFrame_splitData (hchunk j (by omega)) _ _).1 (by omega)
  refine ⟨_, (length_dataFrame_splitData (hchunk m (by omega)) (m + 1) (m + 1 == m + 1)).2, ?_⟩
  rw [buildQueue, List.drop_succ_cons, List.drop_zero, hm, List.map_map, Function.comp_def, List.range_succ,
    List.map_append, List.map_congr_left hinner, List.map_const', List.length_range]
  rfl

/-- R122's total. -/
theorem sum_length_dataFrames (name : Bytes) {data : Bytes} (h : 1 ≤ data.length) :
    ∃ last, (last = 133 ∨ last = 1029) ∧
      (((buildQueue name data).drop 1).map List.length).sum = 1029 * ((splitData data).length - 1) + last := by
  obtain ⟨last, hlast, hmap⟩ := map_length_dataFrames name h
  refine ⟨last, hlast, ?_⟩
  rw [hmap, List.sum_append, List.sum_replicate, List.sum_singleton, smul_eq_mul, Nat.mul_comm]

/-! The port operations on operands that a check refuses, and BUILD_EOT. -/

theorem checkHeader_overflow {name : Bytes} {size : Nat} (h : 128 < name.length + (decText size).length + 2) :
    checkHeader name size = some (.headerOverflow (name.length + (decText size).length + 2)) := if_pos h

theorem checkStart_overflow {s : State} {stream : Stream} {name data : Bytes} (hb : s.busy stream = false)
    (h : 128 < name.length + (decText data.length).length + 2) :
    checkStart s stream name data = some (.headerOverflow (name.length + (decText data.length).length + 2)) := by
  rw [checkStart, hb, if_neg Bool.false_ne_true, checkHeader_overflow h]

theorem exec_buildHeader_overflow (s : State) {name : Bytes} {size : Nat}
    (h : 128 < name.length + (decText size).length + 2) :
    exec (.buildHeader name size) s =
      .next (s.answer (.refused (.headerOverflow (name.length + (decText size).length + 2)))) := by
  simp only [exec, execBuildHeader, checkHeader_overflow h]

theorem exec_buildData_refused (s : State) {chunk : Bytes} (h : chunk.length = 0 ∨ 1024 < chunk.length) (seq : Nat)
    (isFinal : Bool) :
    exec (.buildData chunk seq isFinal) s = .next (s.answer (.refused (.chunkSize chunk.length))) := by
  have hcheck : checkChunk chunk = some (.chunkSize chunk.length) := if_pos h
  simp only [exec, execBuildData, hcheck]

theorem exec_buildEot (s : State) : exec .buildEot s = .next (s.answer (.frame s.params.eotFrame)) := rfl

end Sys2Proof.Machine

open Sys2Proof Sys2Proof.Machine

/-- Settles O17: the chunks are `splitData`'s, with R110's boundaries and lengths. -/
theorem splitResult : Obligations.SplitResult := by
  intro s data
  refine ⟨splitData data, exec_split s data, length_splitData data, fun i c h => ⟨splitData_chunk_eq h, ?_, fun hi => ?_⟩⟩
  · exact length_splitData_chunk_inner h
  · rw [← hi, Nat.add_sub_cancel]
    exact ⟨length_splitData_chunk_last h hi, length_splitData_chunk_bounds h⟩

/-- Settles O18: consecutive reads join to the file, and a data frame's payload begins with its chunk. -/
theorem splitRoundTrip : Obligations.SplitRoundTrip := fun s data name =>
  ⟨splitData data, exec_split s data, flatten_splitData data,
    fun k c hk h => ⟨_, buildQueue_chunk name data k hk c h, take_drop_three_dataFrame c k _⟩⟩

/-- Settles O20: the frame is format F over the padded metadata (R74), and R114's check the only refusal. -/
theorem buildHeaderResult : Obligations.BuildHeaderResult := by
  refine ⟨fun s name size h => ?_, fun s name size h => exec_buildHeader_overflow s h⟩
  have hlen := length_headerPayload name size h
  refine ⟨headerPayload name size, headerFrame name size, exec_buildHeader_fits s name size h, ?_,
    assembleFrame_eq soh 0 hlen, hlen, length_headerFrame h⟩
  have hpad : 128 - (headerMeta name size).length = 126 - name.length - (decText size).length := by
    rw [length_headerMeta]; omega
  rw [headerPayload_eq_meta_append, hpad]
  rfl

/-- Settles O21: both operations make R114's check, START after its test of a free stream (R198). -/
theorem headerOverflowRefused : Obligations.HeaderOverflowRefused := fun s name data _ =>
  ⟨fun h => exec_buildHeader_overflow s h,
    fun stream hb h => execStart_refused s stream name data _ (checkStart_overflow hb h)⟩

/-- Settles O23: the frame is format F over the padded chunk; marker and size depend on its length alone (R111, R116). -/
theorem buildDataResult : Obligations.BuildDataResult := by
  refine fun s chunk seq isFinal => ⟨fun h1 h2 => ?_, fun h => exec_buildData_refused s h seq isFinal⟩
  refine ⟨frameSize chunk, dataMarker chunk, dataPayload chunk, dataFrame chunk seq isFinal,
    fun h => ⟨frameSize_small chunk h, dataMarker_small h⟩, fun h => ⟨frameSize_large chunk h, dataMarker_large h⟩, rfl,
    length_dataPayload chunk h2, ?_, exec_buildData_fits s chunk seq isFinal h1 h2⟩
  rw [dataFrame, assembleFrame_eq _ seq (length_dataPayload chunk h2), compByte_eq_ofNat, ← seqByte_mod]
  rfl

/-- Settles O24: R117's check, and the bounds of SPLIT's chunks. -/
theorem chunkSizeRefused : Obligations.ChunkSizeRefused := by
  refine ⟨fun s chunk seq isFinal h => exec_buildData_refused s h seq isFinal, fun data c hc => ?_⟩
  obtain ⟨i, hi⟩ := List.mem_iff_getElem?.mp hc
  exact length_splitData_chunk_bounds hi

/-- Settles O27: each frame's length is its payload's and five, and the data frames are summed in queue order. -/
theorem frameLengths : Obligations.FrameLengths := by
  refine ⟨fun name size h => length_headerFrame h, fun chunk seq isFinal _ h => length_dataFrame_small h seq isFinal,
    fun chunk seq isFinal h h' => length_dataFrame_large h h' seq isFinal, rfl,
    fun s => ⟨_, exec_buildEot s, Nat.add_comm _ 1⟩, fun name data => ⟨?_, fun h => ?_⟩⟩
  · exact length_buildQueue name data
  · have hsum := sum_length_dataFrames name h
    rwa [length_splitData] at hsum
end

section
/-! SUPPORT. The decimal text (41_framer.md R112) by its recursion, how a receiver reads a header payload (R120), and O19 and O22. -/

namespace Sys2Proof.Machine

/-! The recursion of `DEC`, with the fuel taken out. -/

/-- What holds of one digit, and is kept by one more digit at the end, holds of `DEC`'s digits. -/
theorem decDigits_induction {P : Nat → Bytes → Prop} (digit : ∀ n, n < 10 → P n [asciiDigit n])
    (more : ∀ n ds, 10 ≤ n → P (n / 10) ds → P n (ds ++ [asciiDigit (n % 10)])) (fuel n : Nat) (h : n < fuel) :
    P n (decDigits fuel n) := by
  induction fuel generalizing n with
  | zero => exact absurd h (Nat.not_lt_zero n)
  | succ fuel ih =>
    rw [decDigits]
    split
    · next hn => exact digit n hn
    · next hn => exact more n _ (Nat.not_lt.mp hn) (ih (n / 10) (by omega))

theorem decText_induction {P : Nat → Bytes → Prop} (digit : ∀ n, n < 10 → P n [asciiDigit n])
    (more : ∀ n ds, 10 ≤ n → P (n / 10) ds → P n (ds ++ [asciiDigit (n % 10)])) (n : Nat) : P n (decText n) :=
  decDigits_induction digit more (n + 1) n (Nat.lt_succ_self n)

/-! The digits and their value. -/

theorem toNat_asciiDigit {d : Nat} (h : d < 10) : (asciiDigit d).toNat = 0x30 + d := by
  rw [asciiDigit, BitVec.toNat_ofNat]
  omega

theorem asciiDigit_ne_zeroDigit {d : Nat} (h : d < 10) (h0 : d ≠ 0) : asciiDigit d ≠ 0x30#8 := fun e => by
  have hnat : 0x30 + d = 0x30 := (toNat_asciiDigit h).symm.trans (congrArg BitVec.toNat e)
  omega

theorem decimalValue_append_digit (ds : Bytes) {d : Nat} (h : d < 10) :
    decimalValue (ds ++ [asciiDigit d]) = 10 * decimalValue ds + d := by
  simp [decimalValue, toNat_asciiDigit h]

theorem decimalValue_decText (n : Nat) : decimalValue (decText n) = n := by
  refine decText_induction (P := fun n ds => decimalValue ds = n) (fun n hn => ?_) (fun n ds _ ih => ?_) n
  · exact (decimalValue_append_digit [] hn).trans (Nat.zero_add n)
  · rw [decimalValue_append_digit ds (Nat.mod_lt n (by decide)), ih, Nat.div_add_mod]

theorem decText_digits (n : Nat) : ∀ b ∈ decText n, 0x30 ≤ b.toNat ∧ b.toNat ≤ 0x39 := by
  have hdigit : ∀ d, d < 10 → ∀ b ∈ [asciiDigit d], 0x30 ≤ b.toNat ∧ b.toNat ≤ 0x39 := fun d hd b hb => by
    rw [List.mem_singleton.mp hb, toNat_asciiDigit hd]
    omega
  refine decText_induction (P := fun _ ds => ∀ b ∈ ds, 0x30 ≤ b.toNat ∧ b.toNat ≤ 0x39) hdigit
    (fun n ds _ ih b hb => ?_) n
  rcases List.mem_append.mp hb with hb | hb
  · exact ih b hb
  · exact hdigit _ (Nat.mod_lt n (by decide)) b hb

/-- More digits at the end keep the first one, that of a number from 1 to 9 unless the whole is 0. -/
theorem decText_head (n : Nat) : decText n ≠ [] ∧ (n ≠ 0 → (decText n).head? ≠ some 0x30#8) := by
  refine decText_induction (P := fun n ds => ds ≠ [] ∧ (n ≠ 0 → ds.head? ≠ some 0x30#8)) (fun n hn => ?_)
    (fun n ds hn ⟨hne, hhead⟩ => ?_) n
  · exact ⟨List.cons_ne_nil _ _, fun h0 e => asciiDigit_ne_zeroDigit hn h0 (Option.some.inj e)⟩
  · refine ⟨List.append_ne_nil_of_left_ne_nil hne _, fun _ => ?_⟩
    rw [List.head?_append_of_ne_nil _ hne]
    exact hhead (by omega)

/-! The receiver. -/

/-- A scan stops at the first byte that fails its test. -/
theorem takeWhile_append_stop {p : Byte → Bool} {l : Bytes} {a : Byte} (hl : ∀ b ∈ l, p b = true) (ha : p a = false)
    (rest : Bytes) : (l ++ a :: rest).takeWhile p = l := by
  rw [List.takeWhile_append_of_pos hl, List.takeWhile_cons_of_neg (by simp [ha]), List.append_nil]

theorem dropWhile_append_stop {p : Byte → Bool} {l : Bytes} {a : Byte} (hl : ∀ b ∈ l, p b = true) (ha : p a = false)
    (rest : Bytes) : (l ++ a :: rest).dropWhile p = a :: rest := by
  rw [List.dropWhile_append_of_pos hl, List.dropWhile_cons_of_neg (by simp [ha])]

/-- The two terminators of the payload, 0x00 after the name and 0x20 after the digits. -/
theorem headerPayload_eq_fields (name : Bytes) (size : Nat) :
    ∃ pad, headerPayload name size = name ++ 0x00#8 :: (decText size ++ 0x20#8 :: pad) := by
  refine ⟨List.replicate (128 - (headerMeta name size).length) 0x00#8, ?_⟩
  simp only [headerPayload_eq_meta_append, headerMeta, List.append_assoc, List.cons_append, List.nil_append]

theorem ne_zero_of_mem_name {name : Bytes} (h : 0x00#8 ∉ name) : ∀ b ∈ name, (b != 0x00#8) = true :=
  fun _ hb => bne_iff_ne.mpr fun e => h (e ▸ hb)

theorem ne_space_of_mem_decText (n : Nat) : ∀ b ∈ decText n, (b != 0x20#8) = true :=
  fun b hb => bne_iff_ne.mpr fun e => absurd (decText_digits n b hb).1 (e ▸ by decide)

theorem headerNameOf_headerPayload {name : Bytes} (h : 0x00#8 ∉ name) (size : Nat) :
    headerNameOf (headerPayload name size) = name := by
  obtain ⟨pad, hp⟩ := headerPayload_eq_fields name size
  rw [hp, headerNameOf, takeWhile_append_stop (ne_zero_of_mem_name h) rfl]

theorem headerDigitsOf_headerPayload {name : Bytes} (h : 0x00#8 ∉ name) (size : Nat) :
    headerDigitsOf (headerPayload name size) = decText size := by
  obtain ⟨pad, hp⟩ := headerPayload_eq_fields name size
  rw [hp, headerDigitsOf, dropWhile_append_stop (ne_zero_of_mem_name h) rfl, List.drop_succ_cons, List.drop_zero,
    takeWhile_append_stop (ne_space_of_mem_decText size) rfl]

end Sys2Proof.Machine

open Sys2Proof Sys2Proof.Machine

/-- Settles O19, by induction on the digits: value, range and first digit are each kept by one more digit at the end. -/
theorem decimalTextDenotesTheNumber : Obligations.DecimalTextDenotesTheNumber :=
  ⟨rfl, fun n => ⟨decimalValue_decText n, decText_digits n, decText_head n⟩⟩

/-- Settles O22: offset 3 of the frame is the payload, and no byte of the name or of the digits stops the scan early. -/
theorem headerParseBack : Obligations.HeaderParseBack := by
  intro s name size h0 h
  refine ⟨headerFrame name size, exec_buildHeader_fits s name size h, ?_⟩
  rw [headerFrame, take_drop_three_assembleFrame soh 0 (length_headerPayload name size h)]
  exact ⟨headerNameOf_headerPayload h0 size, by rw [headerDigitsOf_headerPayload h0, decimalValue_decText]⟩
end

section
/-! SUPPORT. The transmitter's rules (42_transmitter.md) as equations, row by row of R146, each at the register values its row names,
how an inbound byte runs its rule at the selected ports, what a byte may send (R145), and O28 to O34, O36 to O39 and O42. -/

namespace Sys2Proof.Machine

/-! How a byte instruction runs its rule. -/

theorem exec_c (s : State) : exec .c s = .next (s.onSession (Session.processByte ctlC ruleC)) := rfl

theorem exec_ack (s : State) : exec .ack s = .next (s.onSession (Session.processByte ctlAck ruleAck)) := rfl

theorem exec_nak (s : State) : exec .nak s = .next (s.onSession (Session.processByte ctlNak (ruleNak s.params))) := rfl

theorem exec_ca (s : State) : exec .ca s = .next (s.onSession (Session.processByte ctlCa ruleCa)) := rfl

theorem exec_other (s : State) (b : Byte) : exec (.other b) s = .next (s.onSession (Session.processByte b id)) := rfl

theorem exec_inChunk (s : State) (c : Bytes) : exec (.inChunk c) s = .next (s.onSession (runChunk s.params c)) := rfl

/-- R130 at a running session: the rule's answer with PREV written, and nothing else of the state. -/
theorem exec_processByte_running {i : Instr} {s : State} {σ τ : Session} {b : Byte} {rule : Session → Session}
    (hi : exec i s = .next (s.onSession (Session.processByte b rule))) (h : s.session? s.sel = some σ)
    (hf : σ.finished = false) (hr : rule σ = τ) :
    ∃ t, exec i s = .next t ∧ OnlySelected s t ∧ t.session? s.sel = some { τ with prev := some b } := by
  obtain ⟨hsess, honly⟩ := s.onSession_spec (Session.processByte b rule) σ h
  rw [processByte_running b rule σ hf, hr] at hsess
  exact ⟨_, hi, honly, hsess⟩

/-! The packet at an index. -/

theorem Session.frameAt_of_getElem? {σ : Session} {k : Nat} {f : Bytes} (h : σ.queue[k]? = some f) : σ.frameAt k = f := by
  rw [Session.frameAt, List.getD_eq_getElem?_getD, h, Option.getD_some]

theorem Session.getElem?_frameAt {σ : Session} {k : Nat} (h : k < σ.queue.length) :
    σ.queue[k]? = some (σ.frameAt k) := by
  rw [Session.frameAt, List.getD_eq_getElem _ _ h, List.getElem?_eq_getElem h]

/-! `C`: R131, R133, R132. -/

theorem ruleC_atEnd {σ : Session} (h : σ.queue.length ≤ σ.cursor) : ruleC σ = (σ.send bareEot).disarm := by
  rw [ruleC, if_pos h]

theorem ruleC_duplicate {σ : Session} (h : σ.cursor < σ.queue.length) (hp : σ.prev = some ctlC) : ruleC σ = σ := by
  rw [ruleC, if_neg (Nat.not_le.mpr h), if_pos hp]

theorem ruleC_packet {σ : Session} {f : Bytes} (h : σ.queue[σ.cursor]? = some f) (hp : σ.prev ≠ some ctlC) :
    ruleC σ = (σ.send f).arm := by
  obtain ⟨hlt, -⟩ := List.getElem?_eq_some_iff.mp h
  rw [ruleC, if_neg (Nat.not_le.mpr hlt), if_neg hp, Session.frameAt_of_getElem? h]

/-! `ACK`: R135, R136, R137, R139. -/

theorem ruleAck_inactive {σ : Session} (ha : σ.active = false) : ruleAck σ = σ.teardown .ackInactive := by
  rw [ruleAck, if_pos ha]

theorem ruleAck_header {σ : Session} (ha : σ.active = true) (hr : σ.armed = true) (hc : σ.cursor = 0) :
    ruleAck σ = { σ with cursor := 1 } := by
  simp [ruleAck, ha, hr, hc]

theorem ruleAck_data {σ : Session} (ha : σ.active = true) (hr : σ.armed = true) (h0 : 0 < σ.cursor)
    (hlt : σ.cursor < σ.queue.length) : ruleAck σ = ackData σ := by
  simp [ruleAck, ha, hr, h0, hlt, Nat.ne_of_gt h0]

theorem ruleAck_atEnd {σ : Session} (ha : σ.active = true) (hr : σ.armed = true) (h0 : 0 < σ.cursor)
    (he : σ.cursor = σ.queue.length) : ruleAck σ = σ.disarm.send bareEot := by
  have hlt : ¬ σ.cursor < σ.queue.length := by omega
  rw [ruleAck, if_neg (by simp [ha]), if_neg (fun h => Nat.ne_of_gt h0 h.2), if_neg (fun h => hlt h.2.2), if_pos ⟨hr, he⟩]

/-! `NAK`: R141. -/

theorem ruleNak_packet (P : Params) {σ : Session} {f : Bytes} (h : σ.queue[σ.cursor]? = some f) :
    ruleNak P σ = σ.send f := by
  obtain ⟨hlt, -⟩ := List.getElem?_eq_some_iff.mp h
  rw [ruleNak, if_pos hlt, Session.frameAt_of_getElem? h]

theorem ruleNak_bare {P : Params} {σ : Session} (h : σ.queue.length ≤ σ.cursor) (hP : P.eotRetx = .bare) :
    ruleNak P σ = σ.send bareEot := by
  rw [ruleNak, if_neg (Nat.not_lt.mpr h), hP]

theorem ruleNak_frame {P : Params} {σ : Session} (h : σ.queue.length ≤ σ.cursor) (hP : P.eotRetx = .frame) :
    ruleNak P σ = σ.send P.eotFrame := by
  rw [ruleNak, if_neg (Nat.not_lt.mpr h), hP]

/-! What a byte may send (R145). -/

@[simp] theorem Session.settle_outq (σ : Session) (r : Result) : (σ.settle r).outq = σ.outq := by
  cases h : σ.finished with
  | true => rw [σ.settle_settled r h]
  | false => rw [σ.settle_running r h]

@[simp] theorem Session.teardown_outq (σ : Session) (cause : Cause) : (σ.teardown cause).outq = σ.outq :=
  σ.settle_outq _

/-- From `σ` to `τ` OUTQ grows by at most one write: the bare EOT, the EOT frame, or the queue's packet at the cursor of `τ`. -/
def SendsAtCursor (P : Params) (σ τ : Session) : Prop :=
  τ.outq = σ.outq ∨ τ.outq = σ.outq ++ [[0x04#8]] ∨ τ.outq = σ.outq ++ [P.eotFrame] ∨
    ∃ f, τ.queue[τ.cursor]? = some f ∧ τ.outq = σ.outq ++ [f]

theorem SendsAtCursor.nothing {P : Params} {σ τ : Session} (h : τ.outq = σ.outq) : SendsAtCursor P σ τ := .inl h

theorem SendsAtCursor.bareEot {P : Params} {σ τ : Session} (h : τ.outq = σ.outq ++ [bareEot]) : SendsAtCursor P σ τ :=
  .inr (.inl h)

theorem SendsAtCursor.eotFrame {P : Params} {σ τ : Session} (h : τ.outq = σ.outq ++ [P.eotFrame]) : SendsAtCursor P σ τ :=
  .inr (.inr (.inl h))

theorem SendsAtCursor.packet {P : Params} {σ τ : Session} (hlt : τ.cursor < τ.queue.length)
    (h : τ.outq = σ.outq ++ [τ.frameAt τ.cursor]) : SendsAtCursor P σ τ :=
  .inr (.inr (.inr ⟨_, Session.getElem?_frameAt hlt, h⟩))

/-- The ACK of a data packet advances the cursor first, so its send is at the new one. -/
theorem ackData_sendsAtCursor (P : Params) (σ : Session) : SendsAtCursor P σ (ackData σ) := by
  rcases Nat.lt_or_ge (σ.cursor + 1) σ.queue.length with h | h
  · rw [ackData_next σ h]
    exact .packet h rfl
  · rw [ackData_last σ h]
    exact .bareEot rfl

/-- Row by row of R146. -/
theorem ruleOf_sendsAtCursor (P : Params) (b : Byte) (σ : Session) : SendsAtCursor P σ (ruleOf P b σ) := by
  rcases ruleOf_cases P b σ with
    ⟨-, -, h⟩ | ⟨-, hlt, -, h⟩ | ⟨-, -, -, h⟩ | ⟨-, -, h⟩ | ⟨-, -, -, -, h⟩ | ⟨-, -, -, -, -, h⟩ | ⟨-, -, -, -, -, h⟩ |
    ⟨-, -, -, h⟩ | ⟨-, hlt, h⟩ | ⟨-, -, -, h⟩ | ⟨-, -, -, h⟩ | ⟨-, h⟩ | ⟨-, h⟩ <;> rw [h]
  · exact .bareEot rfl
  · exact .packet hlt rfl
  · exact .nothing rfl
  · exact .nothing (σ.teardown_outq _)
  · exact .nothing rfl
  · exact ackData_sendsAtCursor P σ
  · exact .bareEot rfl
  · exact .nothing rfl
  · exact .packet hlt rfl
  · exact .bareEot rfl
  · exact .eotFrame rfl
  · exact .nothing (σ.teardown_outq _)
  · exact .nothing rfl

theorem stepByte_sendsAtCursor (P : Params) (σ : Session) (b : Byte) : SendsAtCursor P σ (stepByte P σ b) := by
  cases h : σ.finished with
  | true =>
    rw [stepByte_settled P σ b h]
    exact .nothing rfl
  | false =>
    rw [stepByte, processByte_running b _ σ h]
    exact ruleOf_sendsAtCursor P b σ

end Sys2Proof.Machine

open Sys2Proof Sys2Proof.Machine

/-- Settles O28: R131 has no condition on PREV. -/
theorem pollAtQueueEndSendsEot : Obligations.PollAtQueueEndSendsEot := fun s _ h hf hc =>
  exec_processByte_running (exec_c s) h hf (ruleC_atEnd hc)

/-- Settles O29, by R132. -/
theorem pollSendsPacketAtCursor : Obligations.PollSendsPacketAtCursor := fun s _ _ h hf hq hp =>
  exec_processByte_running (exec_c s) h hf (ruleC_packet hq hp)

/-- Settles O30: R133 leaves the session, and PREV is written with the value it has. -/
theorem duplicatePollSuppressed : Obligations.DuplicatePollSuppressed := by
  intro s σ h hf hlt hp
  have key := exec_processByte_running (exec_c s) h hf (ruleC_duplicate hlt hp)
  have hprev : { σ with prev := some ctlC } = σ := by rw [← show σ.prev = some ctlC from hp]
  rwa [hprev] at key

/-- Settles O31: R135 settles a session that runs. -/
theorem ackInactiveTearsDown : Obligations.AckInactiveTearsDown := fun s σ h hf ha =>
  exec_processByte_running (exec_ack s) h hf ((ruleAck_inactive ha).trans (σ.settle_running _ hf))

/-- Settles O32, by R136. -/
theorem ackOfHeaderAdvances : Obligations.AckOfHeaderAdvances := fun s _ h hf ha hr hc =>
  exec_processByte_running (exec_ack s) h hf (ruleAck_header ha hr hc)

/-- Settles O33: R137 advances the cursor, and what is sent turns on whether a packet stands at the new one. -/
theorem ackOfDataAdvances : Obligations.AckOfDataAdvances := by
  intro s σ h hf ha hr h0 hlt
  obtain ⟨t, ht, honly, hsess⟩ := exec_processByte_running (exec_ack s) h hf (ruleAck_data ha hr h0 hlt)
  refine ⟨t, percent (min (σ.cursor * 1024) σ.total) σ.total, ht, honly, percent_le _ _ (Nat.min_le_right _ _),
    percent_of_pos _ _, fun f hq => ?_, fun hlast => ?_⟩
  · obtain ⟨hnext, -⟩ := List.getElem?_eq_some_iff.mp hq
    rw [hsess, ackData_next σ hnext, Session.frameAt_of_getElem? hq]
    rfl
  · rw [hsess, ackData_last σ (Nat.le_of_eq hlast.symm)]
    rfl

/-- Settles O34, by R139. -/
theorem ackArmedAtEndSendsEot : Obligations.AckArmedAtEndSendsEot := fun s _ h hf ha hr h0 he =>
  exec_processByte_running (exec_ack s) h hf (ruleAck_atEnd ha hr h0 he)

/-- Settles O36: in each of R141's three cases the rule is one send and nothing else. -/
theorem nakResends : Obligations.NakResends := by
  intro s σ f h hf hsend
  have hr : ruleNak s.params σ = σ.send f := by
    rcases hsend with hq | ⟨hc, hP, rfl⟩ | ⟨hc, hP, rfl⟩
    · exact ruleNak_packet _ hq
    · exact ruleNak_bare hc hP
    · exact ruleNak_frame hc hP
  exact exec_processByte_running (exec_nak s) h hf hr

/-- Settles O37: R142 settles a session that runs, whatever its flags. -/
theorem cancelTearsDown : Obligations.CancelTearsDown := fun s σ h hf =>
  exec_processByte_running (exec_ca s) h hf (σ.settle_running _ hf)

/-- Settles O38: the rule of R143 is the identity. -/
theorem otherByteOnlyRecordsPrev : Obligations.OtherByteOnlyRecordsPrev := fun s _ b _ h hf =>
  exec_processByte_running (exec_other s b) h hf rfl

/-- Settles O39: a settled session is a fixed point of every byte and of every chunk. -/
theorem bytesAfterSettleDiscarded : Obligations.BytesAfterSettleDiscarded := by
  intro s σ h hf
  have hdone : ∀ τ, s.session? s.sel = some τ → τ.finished = true := fun τ hτ => by
    rw [← Option.some.inj (h.symm.trans hτ), hf]
  refine ⟨fun b => ?_, fun c => ?_⟩
  · rw [exec_decodeByte, State.onSession_of_fixed _ _ fun τ hτ => stepByte_settled _ τ b (hdone τ hτ)]
  · rw [exec_inChunk, State.onSession_of_fixed _ _ fun τ hτ => runChunk_settled _ c τ (hdone τ hτ)]

/-- Settles O42: the byte is one per-byte step of the session, which sends at the cursor it leaves and keeps the queue. -/
theorem sendsAreQueuePackets : Obligations.SendsAreQueuePackets := by
  intro s t σ b h ht
  rw [exec_decodeByte] at ht
  obtain rfl := Host.Outcome.next.inj ht
  obtain ⟨hsess, -⟩ := s.onSession_spec (fun σ => stepByte s.params σ b) σ h
  exact ⟨stepByte s.params σ b, hsess, stepByte_queue _ σ b, stepByte_sendsAtCursor _ σ b⟩
end

section
/-! SUPPORT. The session's port events (43_session.md): those that leave the session at their ports as it is or settle it, when START
creates its session and when it is refused, and O8, O40, O45 and O47. -/

namespace Sys2Proof.Machine

/-! The events as updates of the session at the selected ports. -/

theorem exec_inEos (s : State) : exec .inEos s = .next (s.onSession fun σ => σ.teardown .endOfStream) := rfl

theorem exec_readFail (s : State) : exec .readFail s = .next (s.onSession fun σ => σ.abort .transportRead) := rfl

theorem exec_writeFail (s : State) : exec .writeFail s = .next (s.onSession fun σ => σ.abort .transportWrite) := rfl

theorem exec_writeDone (s : State) : exec .writeDone s = .next s := rfl

/-- An event that leaves the session at its ports as it is leaves the whole state. -/
theorem exec_onSession_fixed {i : Instr} {s : State} {σ : Session} {f : Session → Session}
    (hi : exec i s = .next (s.onSession f)) (h : s.session? s.sel = some σ) (hf : f σ = σ) : exec i s = .next s := by
  rw [hi, s.onSession_of_fixed f fun τ hτ => Option.some.inj (h.symm.trans hτ) ▸ hf]

/-- An event that settles the session at its ports does so in the order of R186 and R188, and does nothing else. -/
theorem exec_settle_running {i : Instr} {s : State} {σ : Session} {f : Session → Session} {r : Result}
    (hi : exec i s = .next (s.onSession f)) (h : s.session? s.sel = some σ) (hf : σ.finished = false)
    (hr : f σ = σ.settle r) :
    ∃ t, exec i s = .next t ∧ OnlySelected s t ∧
      t.session? s.sel = some
        { σ with
          readHeld := false
          result := some r
          finished := true
          emitted := σ.emitted ++ [.readRelease, .result r] } := by
  obtain ⟨hsess, honly⟩ := s.onSession_spec f σ h
  rw [hr, σ.settle_running r hf] at hsess
  exact ⟨_, hi, honly, hsess⟩

/-! START. -/

/-- R198 refuses a START on a busy stream, and one whose metadata does not fit. -/
theorem exists_checkStart_eq_some {s : State} {stream : Stream} {name data : Bytes}
    (h : s.busy stream = true ∨ 128 < name.length + (decText data.length).length + 2) :
    ∃ code, checkStart s stream name data = some code := by
  refine Option.ne_none_iff_exists'.mp fun hnone => ?_
  obtain ⟨hfree, hfits⟩ := (checkStart_none_iff s stream name data).mp hnone
  rcases h with hbusy | hlong
  · exact Bool.false_ne_true (hfree.symm.trans hbusy)
  · exact Nat.not_lt.mpr hfits hlong

end Sys2Proof.Machine

open Sys2Proof Sys2Proof.Machine

/-- Settles O8: an accepted START puts `newSession`, R40's registers, on its stream and nothing anywhere else. -/
theorem startCreatesSession : Obligations.StartCreatesSession := by
  refine fun s stream name data => ⟨fun hfree hfits => ?_, fun h => ?_⟩
  · exact ⟨_, newSession name data, execStart_accepted s stream name data hfree hfits, State.putSession_same _ _ _, rfl,
      Session.namedState_idle _ rfl rfl rfl, fun k hk => State.putSession_other _ _ _ _ hk, rfl, rfl, rfl⟩
  · obtain ⟨code, hcode⟩ := exists_checkStart_eq_some h
    exact ⟨code, execStart_refused s stream name data code hcode⟩

/-- Settles O40: a settled session is a fixed point of every stream event. -/
theorem eventsAfterSettleDiscarded : Obligations.EventsAfterSettleDiscarded := by
  rintro s σ i h hf (⟨c, rfl⟩ | rfl | rfl | rfl | rfl)
  · exact exec_onSession_fixed (exec_inChunk s c) h (runChunk_settled s.params c σ hf)
  · exact exec_onSession_fixed (exec_inEos s) h (σ.settle_settled _ hf)
  · exact exec_onSession_fixed (exec_readFail s) h (σ.settle_settled _ hf)
  · exact exec_onSession_fixed (exec_writeFail s) h (σ.settle_settled _ hf)
  · exact exec_writeDone s

/-- Settles O45: R166's teardown settles a session that runs. -/
theorem endOfStreamTearsDown : Obligations.EndOfStreamTearsDown := fun s _ h hf =>
  exec_settle_running (exec_inEos s) h hf rfl

/-- Settles O47, by R172. -/
theorem writeDoneHasNoEffect : Obligations.WriteDoneHasNoEffect := exec_writeDone
end

section
/-! SUPPORT. Refusals, aborts and the isolation of streams (60_exceptions.md): what decides R198's checks, what an event does at a
stream as a function of that stream alone (R195), and O10, O46 and O58. -/

namespace Sys2Proof.Machine

/-! R198's checks. -/

/-- A stream is busy when its session runs. -/
theorem State.busy_of_running {s : State} {k : Stream} {σ : Session} (h : s.session? k = some σ) (hf : σ.finished = false) :
    s.busy k = true := by
  simp only [State.busy, h, hf, Bool.not_false]

/-- A stream is free when it has no session, or a settled one. -/
theorem State.not_busy_of_settled {s : State} {k : Stream} (h : ∀ σ, s.session? k = some σ → σ.finished = true) :
    s.busy k = false := by
  unfold State.busy
  split
  · next σ hσ => rw [h σ hσ, Bool.not_true]
  · rfl

theorem checkStart_busy {s : State} {stream : Stream} (h : s.busy stream = true) (name data : Bytes) :
    checkStart s stream name data = some (.streamBusy stream) := if_pos h

/-- The checks read one stream of the state, the one START names. -/
theorem checkStart_congr {s s' : State} {stream : Stream} (h : s.session? stream = s'.session? stream) (name data : Bytes) :
    checkStart s stream name data = checkStart s' stream name data := by
  have hbusy : s.busy stream = s'.busy stream := by rw [State.busy, h, State.busy]
  rw [checkStart, checkStart, hbusy]

/-! What an event does at one stream. -/

/-- START at the stream it names: its checks decide between the session of R162 and the one there already. -/
theorem session?_exec_start {s t : State} {stream : Stream} {name data : Bytes}
    (h : exec (.start stream name data) s = .next t) :
    t.session? stream =
      if checkStart s stream name data = none then some (newSession name data) else s.session? stream := by
  simp only [exec, execStart] at h
  split at h
  · next code hc => cases h; rw [hc, if_neg nofun, State.answer_session?]
  · next hc => cases h; rw [if_pos hc, State.answer_session?, State.putSession_same]

/-- What an event other than START does to the session at its ports, given the parameters. -/
def portUpdate (P : Params) : Instr → Session → Session
  | .c => Session.processByte ctlC ruleC
  | .ack => Session.processByte ctlAck ruleAck
  | .nak => Session.processByte ctlNak (ruleNak P)
  | .ca => Session.processByte ctlCa ruleCa
  | .other b => Session.processByte b id
  | .inChunk chunk => runChunk P chunk
  | .inEos => fun σ => σ.teardown .endOfStream
  | .readFail => fun σ => σ.abort .transportRead
  | .writeFail => fun σ => σ.abort .transportWrite
  | .start _ _ _ | .crc16 _ _ _ _ | .split _ | .buildHeader _ _ | .buildData _ _ _ | .buildEot | .writeDone => id

/-- The sessions after an event other than START: the one at its ports is updated, and there is nothing else it depends on. -/
theorem sessions_exec {i : Instr} {s t : State} (hi : startStream? i = none) (h : exec i s = .next t) :
    t.sessions = modifySession s.sessions s.sel (portUpdate s.params i) := by
  have unchanged : modifySession s.sessions s.sel id = s.sessions := modify_of_fixed _ _ _ fun _ _ => rfl
  cases i with
  | start stream name data => cases hi
  | c | ack | nak | ca | other | inChunk | inEos | readFail | writeFail => cases h; rfl
  | split | buildEot | writeDone => cases h; exact unchanged.symm
  | crc16 buf start length seed =>
    simp only [exec, execCrc16] at h
    split at h <;> (cases h; exact unchanged.symm)
  | buildHeader name size =>
    simp only [exec, execBuildHeader] at h
    split at h <;> (cases h; exact unchanged.symm)
  | buildData chunk seq isFinal =>
    simp only [exec, execBuildData] at h
    split at h <;> (cases h; exact unchanged.symm)

/-- An event other than START at the stream of its ports. -/
theorem session?_exec_selected {i : Instr} {s t : State} (hi : startStream? i = none) (h : exec i s = .next t) :
    t.session? s.sel = (s.session? s.sel).map (portUpdate s.params i) := by
  rw [State.session?, sessions_exec hi h, lookup_modify_same, State.session?]

/-- Any event at a stream that neither has its ports nor is named by it. -/
theorem session?_exec_other {i : Instr} {s t : State} {k : Stream} (hk : k ≠ s.sel) (hi : startStream? i ≠ some k)
    (h : exec i s = .next t) : t.session? k = s.session? k := by
  rcases exec_next_cases i s t h with ⟨r, rfl⟩ | ⟨stream, name, data, rfl, -, -, rfl⟩ | ⟨-, f, rfl, -⟩
  · rfl
  · exact State.putSession_other s stream k _ fun e => hi (congrArg some e.symm)
  · exact s.onSession_other f k hk

end Sys2Proof.Machine

open Sys2Proof Sys2Proof.Machine

/-- Settles O58. An event reaches the stream of its ports and, for START, the stream it names; at the first its effect is
`portUpdate`, at the second the checks and the new session, and neither reads another stream. -/
theorem streamsAreIsolated : Obligations.StreamsAreIsolated := by
  refine ⟨fun s t i k h hk hi => session?_exec_other hk hi h, fun s s' t t' i k hP hsel hσ hi h h' => ?_⟩
  by_cases hn : startStream? i = none
  · by_cases hk : k = s.sel
    · have hk' : k = s'.sel := hk.trans hsel
      rw [hk, session?_exec_selected hn h, ← hk, hσ, hP, hk', session?_exec_selected hn h']
    · have hi' : startStream? i ≠ some k := hn ▸ nofun
      rw [session?_exec_other hk hi' h, session?_exec_other (hsel ▸ hk) hi' h', hσ]
  · have hik := hi hn
    cases i with
    | start stream name data =>
      obtain rfl : stream = k := Option.some.inj hik
      rw [session?_exec_start h, session?_exec_start h', checkStart_congr hσ, hσ]
    | _ => exact absurd rfl hn

/-- Settles O10: R198's two tests, in its order. -/
theorem startRefusals : Obligations.StartRefusals := fun s stream name data =>
  ⟨fun _ h hf => execStart_refused s stream name data _ (checkStart_busy (State.busy_of_running h hf) name data),
    fun hset hlong => execStart_refused s stream name data _ (checkStart_overflow (State.not_busy_of_settled hset) hlong)⟩

/-- Settles O46: R188's abort settles a session that runs, with the failure's own kind. -/
theorem transportFailureAborts : Obligations.TransportFailureAborts := by
  rintro s σ i kind h hf (⟨rfl, rfl⟩ | ⟨rfl, rfl⟩)
  · exact exec_settle_running (exec_readFail s) h hf rfl
  · exact exec_settle_running (exec_writeFail s) h hf rfl
end

section
/-! SUPPORT. How a session settles (60_exceptions.md R187, 70_reset_and_hazards.md R208): a move of a running session either emits no
settling event or ends with READ_RELEASE and RESULT, a settled session does not move, and O54. -/

namespace Sys2Proof.Machine

/-- From `σ` to `τ` the session runs on: it emitted no settling event, and RESULT and READ_HELD stand. -/
structure StaysRunning (σ τ : Session) : Prop where
  finished : τ.finished = false
  result : τ.result = σ.result
  readHeld : τ.readHeld = σ.readHeld
  emitted : ∃ es : List OutEvent, es.all (fun e => !e.isSettling) = true ∧ τ.emitted = σ.emitted ++ es

/-- From `σ` to `τ` the session settled, with READ_RELEASE and RESULT as the last events and no settling event before them. -/
structure Settles (σ τ : Session) : Prop where
  finished : τ.finished = true
  readHeld : τ.readHeld = false
  emitted : ∃ (es : List OutEvent) (r : Result), es.all (fun e => !e.isSettling) = true ∧ τ.result = some r ∧
    τ.emitted = σ.emitted ++ es ++ [.readRelease, .result r]

/-! One move at a time. -/

theorem StaysRunning.silent {σ τ : Session} (hf : τ.finished = false) (hr : τ.result = σ.result)
    (hh : τ.readHeld = σ.readHeld) (he : τ.emitted = σ.emitted) : StaysRunning σ τ :=
  ⟨hf, hr, hh, [], rfl, he.trans (List.append_nil _).symm⟩

theorem StaysRunning.refl {σ : Session} (hf : σ.finished = false) : StaysRunning σ σ := .silent hf rfl rfl rfl

theorem StaysRunning.trans {ρ σ τ : Session} (h : StaysRunning ρ σ) (h' : StaysRunning σ τ) : StaysRunning ρ τ := by
  obtain ⟨es, hes, he⟩ := h.emitted
  obtain ⟨es', hes', he'⟩ := h'.emitted
  refine ⟨h'.finished, h'.result.trans h.result, h'.readHeld.trans h.readHeld, es ++ es', ?_, ?_⟩
  · rw [List.all_append, hes, hes', Bool.and_self]
  · rw [he', he, List.append_assoc]

theorem StaysRunning.settles {ρ σ τ : Session} (h : StaysRunning ρ σ) (h' : Settles σ τ) : Settles ρ τ := by
  obtain ⟨es, hes, he⟩ := h.emitted
  obtain ⟨es', r, hes', hr, he'⟩ := h'.emitted
  refine ⟨h'.finished, h'.readHeld, es ++ es', r, ?_, hr, ?_⟩
  · rw [List.all_append, hes, hes', Bool.and_self]
  · rw [he', he, List.append_assoc ρ.emitted]

theorem Session.settle_settles {σ : Session} (hf : σ.finished = false) (r : Result) : Settles σ (σ.settle r) := by
  rw [σ.settle_running r hf]
  exact ⟨rfl, rfl, [], r, rfl, rfl, by rw [List.append_nil]⟩

theorem Session.requestRead_staysRunning {σ : Session} (hf : σ.finished = false) : StaysRunning σ σ.requestRead := by
  rw [σ.requestRead_running hf]
  exact ⟨hf, rfl, rfl, [.readReq], rfl, rfl⟩

theorem ackData_staysRunning {σ : Session} (hf : σ.finished = false) : StaysRunning σ (ackData σ) := by
  rcases Nat.lt_or_ge (σ.cursor + 1) σ.queue.length with h | h
  · rw [ackData_next σ h]
    exact ⟨hf, rfl, rfl, [.progress _, .write _], rfl, rfl⟩
  · rw [ackData_last σ h]
    exact ⟨hf, rfl, rfl, [.progress _, .write _], rfl, rfl⟩

/-- Row by row of R146: only R135 and R142 settle. -/
theorem ruleOf_staysRunning_or_settles (P : Params) (b : Byte) {σ : Session} (hf : σ.finished = false) :
    StaysRunning σ (ruleOf P b σ) ∨ Settles σ (ruleOf P b σ) := by
  rcases ruleOf_cases P b σ with
    ⟨-, -, h⟩ | ⟨-, -, -, h⟩ | ⟨-, -, -, h⟩ | ⟨-, -, h⟩ | ⟨-, -, -, -, h⟩ | ⟨-, -, -, -, -, h⟩ | ⟨-, -, -, -, -, h⟩ |
    ⟨-, -, -, h⟩ | ⟨-, -, h⟩ | ⟨-, -, -, h⟩ | ⟨-, -, -, h⟩ | ⟨-, h⟩ | ⟨-, h⟩ <;> rw [h]
  · exact .inl ⟨hf, rfl, rfl, [.write _], rfl, rfl⟩
  · exact .inl ⟨hf, rfl, rfl, [.write _], rfl, rfl⟩
  · exact .inl (.refl hf)
  · exact .inr (Session.settle_settles hf _)
  · exact .inl (.silent hf rfl rfl rfl)
  · exact .inl (ackData_staysRunning hf)
  · exact .inl ⟨hf, rfl, rfl, [.write _], rfl, rfl⟩
  · exact .inl (.refl hf)
  · exact .inl ⟨hf, rfl, rfl, [.write _], rfl, rfl⟩
  · exact .inl ⟨hf, rfl, rfl, [.write _], rfl, rfl⟩
  · exact .inl ⟨hf, rfl, rfl, [.write _], rfl, rfl⟩
  · exact .inr (Session.settle_settles hf _)
  · exact .inl (.refl hf)

/-! Every move. -/

/-- The relation that every move respects: a settled session stays as it is (R144, R164), and one that runs goes on or settles. -/
structure SettlesAtMostOnce (σ τ : Session) : Prop where
  settled : σ.finished = true → τ = σ
  running : σ.finished = false → StaysRunning σ τ ∨ Settles σ τ

theorem SettlesAtMostOnce.refl (σ : Session) : SettlesAtMostOnce σ σ := ⟨fun _ => rfl, fun hf => .inl (.refl hf)⟩

/-- A session that settles in the first part does not move in the second. -/
theorem SettlesAtMostOnce.trans {ρ σ τ : Session} (h : SettlesAtMostOnce ρ σ) (h' : SettlesAtMostOnce σ τ) :
    SettlesAtMostOnce ρ τ := by
  refine ⟨fun hf => ?_, fun hf => ?_⟩
  · obtain rfl := h.settled hf
    exact h'.settled hf
  · rcases h.running hf with hrun | hset
    · exact (h'.running hrun.finished).imp hrun.trans hrun.settles
    · rw [h'.settled hset.finished]
      exact .inr hset

theorem Session.settle_settlesAtMostOnce (σ : Session) (r : Result) : SettlesAtMostOnce σ (σ.settle r) :=
  ⟨σ.settle_settled r, fun hf => .inr (Session.settle_settles hf r)⟩

/-- PREV, written after the rule, is no part of the settlement. -/
theorem stepByte_settlesAtMostOnce (P : Params) (σ : Session) (b : Byte) : SettlesAtMostOnce σ (stepByte P σ b) := by
  refine ⟨stepByte_settled P σ b, fun hf => ?_⟩
  rw [stepByte, processByte_running b _ σ hf]
  rcases ruleOf_staysRunning_or_settles P b hf with hrun | hset
  · exact .inl ⟨hrun.finished, hrun.result, hrun.readHeld, hrun.emitted⟩
  · exact .inr ⟨hset.finished, hset.readHeld, hset.emitted⟩

theorem SessionMove.settlesAtMostOnce {P : Params} {σ τ : Session} (h : SessionMove P σ τ) : SettlesAtMostOnce σ τ := by
  refine SessionMove.rel (Q := SettlesAtMostOnce) (refl := .refl) (trans := fun _ _ _ => .trans)
    (byte := stepByte_settlesAtMostOnce P) (prev := fun σ b hf => ?_) (req := fun σ => ?_)
    (eos := fun σ => σ.settle_settlesAtMostOnce _) (fail := fun σ _ => σ.settle_settlesAtMostOnce _) h
  · exact ⟨fun hset => absurd (hset.symm.trans hf) nofun, fun _ => .inl (.silent hf rfl rfl rfl)⟩
  · exact ⟨σ.requestRead_settled, fun hf => .inl (Session.requestRead_staysRunning hf)⟩

end Sys2Proof.Machine

open Sys2Proof Sys2Proof.Machine

/-- Settles O54: an event other than START on the stream is a move of its session, and a move settles a running session at most once,
with READ_RELEASE and RESULT last. -/
theorem settlesOnceReleaseFirst : Obligations.SettlesOnceReleaseFirst := by
  intro s t i k σ τ h hk hσ hf hτ
  obtain ⟨τ', hτ', hmove⟩ := exec_session i s t k σ h hk hσ
  obtain rfl : τ' = τ := Option.some.inj (hτ'.symm.trans hτ)
  rcases hmove.settlesAtMostOnce.running hf with hrun | hset
  · obtain ⟨es, hes, he⟩ := hrun.emitted
    exact ⟨es, hes, .inl ⟨hrun.finished, he, hrun.result, hrun.readHeld⟩⟩
  · obtain ⟨es, r, hes, hr, he⟩ := hset.emitted
    exact ⟨es, hes, .inr ⟨hset.finished, hset.readHeld, r, hr, he⟩⟩
end

section
/-! SUPPORT. Decoding and the step (30_encoding.md sections 1 and 4, 00_scope.md R6): decode and encode as inverses, a step by the head
of the pending events, and O1, O3 to O6. -/

namespace Sys2Proof

/-! Decode and encode. -/

/-- The well-formed inbound instructions are the readings of the 256 bytes (R71). -/
theorem exists_decodeByte_eq {i : Instr} (hw : i.wellFormed = true) (hp : i.isPort = false) : ∃ b, decodeByte b = i := by
  cases i with
  | c => exact ⟨ctlC, decodeByte_ctlC⟩
  | ack => exact ⟨ctlAck, decodeByte_ctlAck⟩
  | nak => exact ⟨ctlNak, decodeByte_ctlNak⟩
  | ca => exact ⟨ctlCa, decodeByte_ctlCa⟩
  | other b =>
    have hb : ((b ≠ ctlC ∧ b ≠ ctlAck) ∧ b ≠ ctlNak) ∧ b ≠ ctlCa := by
      simpa [Instr.wellFormed, isControl] using hw
    obtain ⟨⟨⟨hc, hack⟩, hnak⟩, hca⟩ := hb
    exact ⟨b, decodeByte_other hc hack hnak hca⟩
  | _ => exact Bool.noConfusion hp

theorem encode_decodeByte (b : Byte) : encode (decodeByte b) = [b] := (decodeByte_spec b).2.2

/-- Decoding undoes encoding, whatever follows. -/
theorem decode_encode {i : Instr} (hw : i.wellFormed = true) (hp : i.isPort = false) (rest : Bytes) :
    decode (encode i ++ rest) = .ok (i, rest) := by
  obtain ⟨b, rfl⟩ := exists_decodeByte_eq hw hp
  rw [encode_decodeByte, List.singleton_append, decode_cons]

/-- Encoding undoes decoding, and the instruction read is well formed and inbound. -/
theorem decode_singleton_eq_ok_iff (b : Byte) (i : Instr) :
    (i.wellFormed = true ∧ i.isPort = false ∧ encode i = [b]) ↔ decode [b] = .ok (i, []) := by
  constructor
  · rintro ⟨hw, hp, he⟩
    rw [← he, ← List.append_nil (encode i), decode_encode hw hp]
  · intro h
    obtain rfl : decodeByte b = i := by injection h with h; exact congrArg Prod.fst h
    exact decodeByte_spec b

/-- The rows without bytes are the port operations (R84). -/
theorem encode_eq_nil_iff (i : Instr) : encode i = [] ↔ i.isPort = true := by
  cases i <;> simp [encode, Instr.isPort]

end Sys2Proof

namespace Sys2Proof.Machine

/-! A step, by the head of the pending events. -/

theorem step_of_inputs_nil {s : State} (h : s.inputs = []) : step s = .next s := by
  simp only [step, h]

theorem step_of_decode {s : State} {stream : Stream} {chunk left : Bytes} {rest : List Input} {i : Instr}
    (h : s.inputs = .bytes stream chunk :: rest) (hd : decode chunk = .ok (i, left)) :
    step s = exec i (s.takeAt stream (.bytes stream left :: rest)) := by
  simp only [step, h, hd]

/-- The used-up chunk is the empty IN_CHUNK (log 2). -/
theorem step_of_chunk_nil {s : State} {stream : Stream} {rest : List Input} (h : s.inputs = .bytes stream [] :: rest) :
    step s = exec (.inChunk []) (s.takeAt stream rest) := by
  simp only [step, h, decode]

theorem step_of_port {s : State} {stream : Stream} {rest : List Input} {i : Instr} (h : s.inputs = .port stream i :: rest)
    (hp : i.isPort = true) : step s = exec i (s.takeAt stream rest) := by
  simp only [step, h, hp, if_true]

theorem step_of_inbound {s : State} {stream : Stream} {rest : List Input} {i : Instr} (h : s.inputs = .port stream i :: rest)
    (hp : i.isPort = false) : step s = .fault .byteOutsideChunk := by
  simp only [step, h, hp, Bool.false_eq_true, if_false]

end Sys2Proof.Machine

open Sys2Proof Sys2Proof.Machine

/-- Settles O3: the well-formed inbound instructions are the readings of the 256 bytes, and each reading encodes as its byte. -/
theorem decodeEncodeAgree : Obligations.DecodeEncodeAgree :=
  ⟨fun _ rest hw hp => decode_encode hw hp rest, decode_singleton_eq_ok_iff, encode_eq_nil_iff⟩

/-- Settles O1: the seven words, each read by evaluation. -/
theorem controlWordsDecode : Obligations.ControlWordsDecode := by
  unfold Obligations.ControlWordsDecode
  decide

/-- Settles O4: decoding consumes the byte, and the rest of the chunk stays at the head. -/
theorem stepRunsDecodedByte : Obligations.StepRunsDecodedByte := fun _ _ _ _ _ _ h hd _ => step_of_decode h hd

/-- Settles O5: `isPort` decides between the operation and the fault. -/
theorem stepTakesPortEvent : Obligations.StepTakesPortEvent := fun _ _ _ _ h =>
  ⟨fun hp => step_of_port h hp, fun hp => step_of_inbound h hp⟩

/-- Settles O6: the two kinds of pending events that decode to no instruction. -/
theorem stepWaitsWithNothingPending : Obligations.StepWaitsWithNothingPending :=
  ⟨fun _ h => step_of_inputs_nil h, fun _ _ _ h => step_of_chunk_nil h⟩
end

section
/-! SUPPORT. The invariant (10_state.md R36): each way a session changes keeps it, hence every rule of the transmitter, every event and
every step; and O7, O49, O50 and O59. -/

namespace Sys2Proof.Machine

/-! The parts that several changes share. -/

/-- A write the invariant allows (R55, R119). -/
def KnownWrite (P : Params) (σ : Session) (f : Bytes) : Prop :=
  f ∈ σ.queue ∨ f = bareEot ∨ (P.eotRetx = .frame ∧ f = P.eotFrame)

theorem KnownWrite.packet {P : Params} {σ : Session} {k : Nat} (h : k < σ.queue.length) : KnownWrite P σ (σ.frameAt k) :=
  .inl (List.mem_of_getElem? (Session.getElem?_frameAt h))

theorem KnownWrite.bareEot {P : Params} {σ : Session} : KnownWrite P σ bareEot := .inr (.inl rfl)

theorem KnownWrite.eotFrame {P : Params} {σ : Session} (h : P.eotRetx = .frame) : KnownWrite P σ P.eotFrame :=
  .inr (.inr ⟨h, rfl⟩)

/-- A running session has no result. -/
theorem Session.Inv.result_eq_none {P : Params} {σ : Session} (h : σ.Inv P) (hf : σ.finished = false) : σ.result = none :=
  Option.isNone_iff_eq_none.mp (by rw [← Option.not_isSome, ← h.finishedResult, hf, Bool.not_false])

/-- A running session has emitted no settling event, and one more event that does not settle keeps it so. -/
theorem Session.Inv.settledOnce_append {P : Params} {σ : Session} (h : σ.Inv P) (hf : σ.finished = false) {e : OutEvent}
    (he : e.isSettling = false) :
    ∃ before, before.all (fun e => !e.isSettling) = true ∧
      σ.emitted ++ [e] = before ++ (match σ.result with
        | none => []
        | some r => [.readRelease, .result r]) := by
  obtain ⟨before, hb, hem⟩ := h.settledOnce
  rw [h.result_eq_none hf, List.append_nil] at hem
  refine ⟨before ++ [e], by simp [hb, he], ?_⟩
  rw [h.result_eq_none hf, hem, List.append_nil]

/-- Events that write nothing leave the writes as they are. -/
theorem Session.Inv.outqWrites_append {P : Params} {σ : Session} (h : σ.Inv P) {es : List OutEvent}
    (hes : es.filterMap OutEvent.write? = []) : σ.outq = (σ.emitted ++ es).filterMap OutEvent.write? := by
  rw [List.filterMap_append, hes, List.append_nil, h.outqWrites]

/-- Events that report no progress leave the PROGRESS values as they are. -/
theorem Session.progressValues_append (σ : Session) {es : List OutEvent} (hes : es.filterMap OutEvent.progress? = []) :
    (σ.emitted ++ es).filterMap OutEvent.progress? = σ.progressValues := by
  rw [List.filterMap_append, hes, List.append_nil, Session.progressValues]

/-! What keeps the invariant. -/

/-- PREV is in no part of the invariant. -/
theorem Session.Inv.setPrev {P : Params} {σ : Session} (h : σ.Inv P) (p : Option Byte) : ({ σ with prev := p } : Session).Inv P :=
  { h with }

theorem Session.Inv.emit_readReq {P : Params} {σ : Session} (h : σ.Inv P) (hf : σ.finished = false) :
    (σ.emit .readReq).Inv P :=
  { h with
    outqWrites := h.outqWrites_append rfl
    progressEach := (σ.progressValues_append rfl).trans h.progressEach
    settledOnce := h.settledOnce_append hf rfl }

theorem Session.Inv.send {P : Params} {σ : Session} {f : Bytes} (h : σ.Inv P) (hf : σ.finished = false)
    (hw : KnownWrite P σ f) : (σ.send f).Inv P :=
  { h with
    writesKnown := fun g hg => by
      rcases List.mem_append.mp hg with hg | hg
      · exact h.writesKnown g hg
      · rw [List.mem_singleton.mp hg]; exact hw
    outqWrites := by
      rw [Session.send_outq, Session.send_emitted, List.filterMap_append, ← h.outqWrites]
      rfl
    progressEach := (σ.progressValues_append rfl).trans h.progressEach
    settledOnce := h.settledOnce_append hf rfl }

/-- R132 arms only with a packet at the cursor. -/
theorem Session.Inv.arm {P : Params} {σ : Session} (h : σ.Inv P) (hlt : σ.cursor < σ.queue.length) : σ.arm.Inv P :=
  { h with
    flagsAgree := rfl
    inactiveEnds := nofun
    activeAtEnd := fun _ he => absurd he (Nat.ne_of_lt hlt) }

/-- R131 and R139 disarm only at the end of the queue. -/
theorem Session.Inv.disarm {P : Params} {σ : Session} (h : σ.Inv P) (he : σ.cursor = σ.queue.length) : σ.disarm.Inv P :=
  { h with
    flagsAgree := rfl
    inactiveEnds := fun _ => .inr he
    activeAtEnd := nofun }

/-- R136: the header counts neither for WRITTEN nor for PROGRESS. -/
theorem Session.Inv.ackHeader {P : Params} {σ : Session} (h : σ.Inv P) (ha : σ.active = true) (hc : σ.cursor = 0) :
    ({ σ with cursor := 1 } : Session).Inv P :=
  have hpred : σ.cursor - 1 = 1 - 1 := by rw [hc]
  { h with
    cursorLe := by rw [h.queueLength]; exact Nat.le_add_right 1 _
    inactiveEnds := fun hi => absurd (ha.symm.trans hi) nofun
    activeAtEnd := fun _ he => he.symm
    writtenEq := h.writtenEq.trans (by rw [hpred])
    progressEach := h.progressEach.trans (by rw [hpred]) }

/-- Settling puts READ_RELEASE and RESULT after events of which none settles (R186, R188). -/
theorem Session.Inv.settle {P : Params} {σ : Session} {r : Result} (h : σ.Inv P)
    (hr : ∀ n t w c, r = .outcome n t w c → n = σ.name ∧ t = σ.total ∧ w = σ.written) : (σ.settle r).Inv P := by
  cases hf : σ.finished with
  | true => rwa [σ.settle_settled r hf]
  | false =>
    obtain ⟨before, hb, hem⟩ := h.settledOnce
    rw [h.result_eq_none hf, List.append_nil] at hem
    rw [σ.settle_running r hf]
    exact
      { h with
        finishedResult := rfl
        finishedHeld := rfl
        outqWrites := h.outqWrites_append rfl
        progressEach := (σ.progressValues_append rfl).trans h.progressEach
        settledOnce := ⟨before, hb, by rw [hem]⟩
        outcomeFields := fun n t w c he => hr n t w c (Option.some.inj he) }

theorem Session.Inv.teardown {P : Params} {σ : Session} (h : σ.Inv P) (cause : Cause) : (σ.teardown cause).Inv P :=
  h.settle fun _ _ _ _ he => by injection he with hn ht hw _; exact ⟨hn.symm, ht.symm, hw.symm⟩

theorem Session.Inv.abort {P : Params} {σ : Session} (h : σ.Inv P) (kind : ErrorKind) : (σ.abort kind).Inv P :=
  h.settle nofun

/-! The ACK of a data packet. -/

/-- R137 before its send: WRITTEN, the cursor and PROGRESS, with both flags left at `more`, whether a packet follows. -/
def Session.advance (σ : Session) (more : Bool) : Session :=
  { σ with
    written := min (σ.cursor * chunkSize) σ.total
    cursor := σ.cursor + 1
    active := more
    armed := more
    emitted := σ.emitted ++ [.progress (percent (min (σ.cursor * chunkSize) σ.total) σ.total)] }

theorem ackData_eq_advance_send {σ : Session} (ha : σ.active = true) (hr : σ.armed = true)
    (h : σ.cursor + 1 < σ.queue.length) : ackData σ = (σ.advance true).send (σ.frameAt (σ.cursor + 1)) := by
  rw [ackData_next σ h]
  simp [Session.advance, Session.send, ha, hr]

theorem ackData_eq_advance_eot {σ : Session} (h : σ.queue.length ≤ σ.cursor + 1) :
    ackData σ = (σ.advance false).send bareEot := by
  rw [ackData_last σ h]
  simp [Session.advance, Session.send]

theorem Session.Inv.advance {P : Params} {σ : Session} {more : Bool} (h : σ.Inv P) (hf : σ.finished = false)
    (h0 : 0 < σ.cursor) (hlt : σ.cursor < σ.queue.length) (hmore : more = true ↔ σ.cursor + 1 < σ.queue.length) :
    (σ.advance more).Inv P :=
  { h with
    cursorLe := hlt
    flagsAgree := rfl
    inactiveEnds := fun (hm : more = false) => .inr <| by
      have hlast : ¬ σ.cursor + 1 < σ.queue.length := fun hnext => absurd (hmore.mpr hnext) (by simp [hm])
      exact Nat.le_antisymm hlt (Nat.not_lt.mp hlast)
    activeAtEnd := fun hm he => absurd he (Nat.ne_of_lt (hmore.mp hm))
    writtenEq := rfl
    outqWrites := h.outqWrites_append rfl
    progressEach := by
      have hlast : σ.cursor = σ.cursor - 1 + 1 := by omega
      have hvalues : (σ.advance more).progressValues =
          σ.progressValues ++ [percent (min (σ.cursor * chunkSize) σ.total) σ.total] := by
        simp [Session.progressValues, Session.advance, OutEvent.progress?]
      rw [hvalues, h.progressEach]
      show _ = (List.range σ.cursor).map _
      conv_rhs => rw [hlast, List.range_succ, List.map_append, List.map_singleton, ← hlast]
      rfl
    settledOnce := h.settledOnce_append hf rfl
    outcomeFields := fun _ _ _ _ he => absurd ((h.result_eq_none hf).symm.trans he) nofun }

theorem Session.Inv.ackData {P : Params} {σ : Session} (h : σ.Inv P) (hf : σ.finished = false) (ha : σ.active = true)
    (hr : σ.armed = true) (h0 : 0 < σ.cursor) (hlt : σ.cursor < σ.queue.length) : (ackData σ).Inv P := by
  by_cases hnext : σ.cursor + 1 < σ.queue.length
  · rw [ackData_eq_advance_send ha hr hnext]
    exact (h.advance hf h0 hlt (iff_of_true rfl hnext)).send hf (.packet (σ := σ.advance true) hnext)
  · rw [ackData_eq_advance_eot (Nat.not_lt.mp hnext)]
    exact (h.advance hf h0 hlt (iff_of_false Bool.false_ne_true hnext)).send hf .bareEot

/-! Every byte and every event. -/

/-- Row by row of R146. -/
theorem Session.Inv.ruleOf {P : Params} {σ : Session} (h : σ.Inv P) (hf : σ.finished = false) (b : Byte) :
    (ruleOf P b σ).Inv P := by
  rcases ruleOf_cases P b σ with
    ⟨-, hc, e⟩ | ⟨-, hlt, -, e⟩ | ⟨-, -, -, e⟩ | ⟨-, -, e⟩ | ⟨-, ha, -, hc, e⟩ | ⟨-, ha, hr, h0, hlt, e⟩ | ⟨-, -, -, -, hc, e⟩ |
    ⟨-, -, -, e⟩ | ⟨-, hlt, e⟩ | ⟨-, -, -, e⟩ | ⟨-, -, hP, e⟩ | ⟨-, e⟩ | ⟨-, e⟩ <;> rw [e]
  · exact (h.send hf .bareEot).disarm (Nat.le_antisymm h.cursorLe hc)
  · exact (h.send hf (.packet hlt)).arm hlt
  · exact h
  · exact h.teardown _
  · exact h.ackHeader ha hc
  · exact h.ackData hf ha hr h0 hlt
  · exact (h.disarm hc).send hf .bareEot
  · exact h
  · exact h.send hf (.packet hlt)
  · exact h.send hf .bareEot
  · exact h.send hf (.eotFrame hP)
  · exact h.teardown _
  · exact h

theorem Session.Inv.stepByte {P : Params} {σ : Session} (h : σ.Inv P) (b : Byte) : (stepByte P σ b).Inv P := by
  cases hf : σ.finished with
  | true => rwa [stepByte_settled P σ b hf]
  | false =>
    rw [Machine.stepByte, processByte_running b _ σ hf]
    exact (h.ruleOf hf b).setPrev _

theorem Session.Inv.requestRead {P : Params} {σ : Session} (h : σ.Inv P) : σ.requestRead.Inv P := by
  cases hf : σ.finished with
  | true => rwa [σ.requestRead_settled hf]
  | false =>
    rw [σ.requestRead_running hf]
    exact h.emit_readReq hf

theorem SessionMove.keeps_inv {P : Params} {σ τ : Session} (hmove : SessionMove P σ τ) (h : σ.Inv P) : τ.Inv P :=
  SessionMove.rel (Q := fun σ τ => σ.Inv P → τ.Inv P) (refl := fun _ => id) (trans := fun _ _ _ hab hbc h => hbc (hab h))
    (byte := fun _ b h => h.stepByte b) (prev := fun _ _ _ h => h.setPrev _) (req := fun _ h => h.requestRead)
    (eos := fun _ h => h.teardown _) (fail := fun _ kind h => h.abort kind) hmove h

/-! The session of START. -/

theorem isPacket_headerFrame {name : Bytes} {size : Nat} (h : name.length + (decText size).length + 2 ≤ 128) :
    IsPacket 0 (headerFrame name size) :=
  ⟨soh, headerPayload name size, rfl, .inl ⟨rfl, length_headerPayload name size h⟩⟩

theorem isPacket_dataFrame {chunk : Bytes} (h : chunk.length ≤ 1024) (k : Nat) (isFinal : Bool) :
    IsPacket k (dataFrame chunk k isFinal) := by
  refine ⟨dataMarker chunk, dataPayload chunk, rfl, ?_⟩
  rw [length_dataPayload chunk h]
  rcases Nat.lt_or_ge 128 chunk.length with hlarge | hsmall
  · exact .inr ⟨dataMarker_large hlarge, frameSize_large chunk hlarge⟩
  · exact .inl ⟨dataMarker_small hsmall, frameSize_small chunk hsmall⟩

theorem isPacket_buildQueue {name data f : Bytes} {k : Nat} (h : name.length + (decText data.length).length + 2 ≤ 128)
    (hk : (buildQueue name data)[k]? = some f) : IsPacket k f := by
  cases k with
  | zero =>
    obtain rfl : headerFrame name data.length = f := Option.some.inj hk
    exact isPacket_headerFrame h
  | succ i =>
    obtain ⟨hlt, -⟩ := List.getElem?_eq_some_iff.mp hk
    have hi : i < (splitData data).length := by rw [length_buildQueue] at hlt; rw [length_splitData]; omega
    have hc := List.getElem?_eq_getElem hi
    rw [buildQueue_chunk name data (i + 1) (Nat.le_add_left 1 i) _ hc] at hk
    rw [← Option.some.inj hk]
    exact isPacket_dataFrame (length_splitData_chunk_bounds hc).2 _ _

/-- R162, R40: a new session meets the invariant. -/
theorem newSession_inv (P : Params) {name data : Bytes} (h : name.length + (decText data.length).length + 2 ≤ 128) :
    (newSession name data).Inv P where
  cursorLe := Nat.zero_le _
  flagsAgree := rfl
  inactiveEnds := fun _ => .inl rfl
  activeAtEnd := nofun
  writtenEq := by simp [newSession]
  finishedResult := rfl
  finishedHeld := rfl
  queueLength := length_buildQueue name data
  queueHeader := rfl
  queuePackets := fun _ _ hk => isPacket_buildQueue h hk
  writesKnown := nofun
  outqWrites := rfl
  progressEach := rfl
  settledOnce := ⟨[.readReq], rfl, rfl⟩
  outcomeFields := nofun

/-! The state. -/

theorem State.Inv.putSession {s : State} (h : s.Inv) (k : Stream) {σ : Session} (hσ : σ.Inv s.params) :
    (s.putSession k σ).Inv := by
  obtain ⟨hsorted, hinv⟩ := h
  refine ⟨sorted_insert _ _ _ hsorted, fun j τ hτ => ?_⟩
  by_cases hj : j = k
  · rw [hj, State.putSession_same] at hτ
    exact Option.some.inj hτ ▸ hσ
  · rw [State.putSession_other _ _ _ _ hj] at hτ
    exact hinv j τ hτ

theorem State.Inv.onSession {s : State} (h : s.Inv) {f : Session → Session} (hf : ∀ σ, σ.Inv s.params → (f σ).Inv s.params) :
    (s.onSession f).Inv := by
  obtain ⟨hsorted, hinv⟩ := h
  refine ⟨(sorted_modify _ _ _).trans hsorted, fun j τ hτ => ?_⟩
  by_cases hj : j = s.sel
  · rw [hj, State.onSession_same] at hτ
    obtain ⟨σ, hσ, rfl⟩ := Option.map_eq_some_iff.mp hτ
    exact hf σ (hinv _ σ hσ)
  · rw [State.onSession_other _ _ _ hj] at hτ
    exact hinv j τ hτ

theorem exec_keeps_inv {i : Instr} {s t : State} (h : s.Inv) (ht : exec i s = .next t) : t.Inv := by
  rcases exec_next_cases i s t ht with ⟨r, rfl⟩ | ⟨stream, name, data, -, -, hfits, rfl⟩ | ⟨-, f, rfl, hf⟩
  · exact h
  · exact h.putSession stream (newSession_inv s.params hfits)
  · exact h.onSession fun σ hσ => (hf σ).keeps_inv hσ

theorem exec_params {i : Instr} {s t : State} (ht : exec i s = .next t) : t.params = s.params := by
  rcases exec_next_cases i s t ht with ⟨r, rfl⟩ | ⟨stream, name, data, -, -, -, rfl⟩ | ⟨-, f, rfl, -⟩ <;> rfl

end Sys2Proof.Machine

open Sys2Proof Sys2Proof.Machine

/-- Settles O49: a step waits, or executes one instruction, which answers, starts a session or makes a move of one; each keeps the
invariant. -/
theorem stepKeepsInvariant : Obligations.StepKeepsInvariant := by
  intro s t h ht
  rcases step_next_cases s t ht with rfl | ⟨i, stream, left, hexec⟩
  · exact h
  · exact exec_keeps_inv (s := s.takeAt stream left) h hexec

/-- Settles O50: at reset there is no session to speak of. -/
theorem resetMeetsInvariant : Obligations.ResetMeetsInvariant := ⟨rfl, nofun⟩

/-- Settles O7, field by field of the reset state. -/
theorem resetHoldsNoSession : Obligations.ResetHoldsNoSession :=
  ⟨fun _ => rfl, rfl, rfl, rfl, step_of_inputs_nil rfl⟩

/-- Settles O59: no instruction writes a parameter. -/
theorem parametersNeverChange : Obligations.ParametersNeverChange := by
  intro s t ht
  rcases step_next_cases s t ht with rfl | ⟨i, stream, left, hexec⟩
  · rfl
  · exact (exec_params hexec).trans (s.takeAt_params stream left)
end

section
/-! SUPPORT. What the invariant says of a session's registers, packets and outputs (20_memory.md section 4, 30_encoding.md section 4,
43_session.md section 4), and O52, O53 and O55 to O57. -/

namespace Sys2Proof.Machine

/-! What only grows (R22, R34, R64). -/

/-- From `σ` to `τ` the file is the same one, the cursor has not gone back, and outputs were only appended. -/
structure Extends (σ τ : Session) : Prop where
  name : τ.name = σ.name
  total : τ.total = σ.total
  queue : τ.queue = σ.queue
  cursor : σ.cursor ≤ τ.cursor
  outq : σ.outq <+: τ.outq
  emitted : σ.emitted <+: τ.emitted

theorem Extends.refl (σ : Session) : Extends σ σ :=
  ⟨rfl, rfl, rfl, Nat.le_refl _, ⟨[], List.append_nil _⟩, ⟨[], List.append_nil _⟩⟩

theorem Extends.trans {ρ σ τ : Session} (h : Extends ρ σ) (h' : Extends σ τ) : Extends ρ τ :=
  ⟨h'.name.trans h.name, h'.total.trans h.total, h'.queue.trans h.queue, Nat.le_trans h.cursor h'.cursor,
    h.outq.trans h'.outq, h.emitted.trans h'.emitted⟩

theorem Session.send_extends (σ : Session) (f : Bytes) : Extends σ (σ.send f) :=
  { Extends.refl σ with
    outq := ⟨_, rfl⟩
    emitted := ⟨_, rfl⟩ }

theorem Session.settle_extends (σ : Session) (r : Result) : Extends σ (σ.settle r) := by
  cases hf : σ.finished with
  | true => rw [σ.settle_settled r hf]; exact .refl σ
  | false =>
    rw [σ.settle_running r hf]
    exact { Extends.refl σ with emitted := ⟨_, rfl⟩ }

theorem Session.requestRead_extends (σ : Session) : Extends σ σ.requestRead := by
  cases hf : σ.finished with
  | true => rw [σ.requestRead_settled hf]; exact .refl σ
  | false =>
    rw [σ.requestRead_running hf]
    exact { Extends.refl σ with emitted := ⟨_, rfl⟩ }

theorem ackData_extends (σ : Session) : Extends σ (ackData σ) := by
  rcases Nat.lt_or_ge (σ.cursor + 1) σ.queue.length with h | h
  · rw [ackData_next σ h]
    exact ⟨rfl, rfl, rfl, Nat.le_succ _, ⟨_, rfl⟩, ⟨_, rfl⟩⟩
  · rw [ackData_last σ h]
    exact ⟨rfl, rfl, rfl, Nat.le_succ _, ⟨_, rfl⟩, ⟨_, rfl⟩⟩

/-- Row by row of R146; flags are not part of the relation. -/
theorem ruleOf_extends (P : Params) (b : Byte) (σ : Session) : Extends σ (ruleOf P b σ) := by
  rcases ruleOf_cases P b σ with
    ⟨-, -, h⟩ | ⟨-, -, -, h⟩ | ⟨-, -, -, h⟩ | ⟨-, -, h⟩ | ⟨-, -, -, hc, h⟩ | ⟨-, -, -, -, -, h⟩ | ⟨-, -, -, -, -, h⟩ |
    ⟨-, -, -, h⟩ | ⟨-, -, h⟩ | ⟨-, -, -, h⟩ | ⟨-, -, -, h⟩ | ⟨-, h⟩ | ⟨-, h⟩ <;> rw [h]
  · exact { σ.send_extends bareEot with }
  · exact { σ.send_extends (σ.frameAt σ.cursor) with }
  · exact .refl σ
  · exact σ.settle_extends _
  · exact { Extends.refl σ with cursor := hc ▸ Nat.zero_le 1 }
  · exact ackData_extends σ
  · exact { σ.send_extends bareEot with }
  · exact .refl σ
  · exact σ.send_extends _
  · exact σ.send_extends _
  · exact σ.send_extends _
  · exact σ.settle_extends _
  · exact .refl σ

theorem stepByte_extends (P : Params) (σ : Session) (b : Byte) : Extends σ (stepByte P σ b) := by
  cases hf : σ.finished with
  | true => rw [stepByte_settled P σ b hf]; exact .refl σ
  | false =>
    rw [stepByte, processByte_running b _ σ hf]
    exact { ruleOf_extends P b σ with }

theorem SessionMove.toExtends {P : Params} {σ τ : Session} (h : SessionMove P σ τ) : Extends σ τ :=
  SessionMove.rel (Q := Extends) (refl := .refl) (trans := fun _ _ _ => .trans) (byte := stepByte_extends P)
    (prev := fun σ _ _ => { Extends.refl σ with }) (req := Session.requestRead_extends)
    (eos := fun σ => σ.settle_extends _) (fail := fun σ _ => σ.settle_extends _) h

/-- WRITTEN is a function of CURSOR and TOTAL that grows with the cursor (R27). -/
theorem Session.Inv.written_le {P : Params} {σ τ : Session} (hσ : σ.Inv P) (hτ : τ.Inv P) (h : Extends σ τ) :
    σ.written ≤ τ.written := by
  rw [hσ.writtenEq, hτ.writtenEq, h.total]
  exact min_le_min_right _ (Nat.mul_le_mul_right _ (Nat.sub_le_sub_right h.cursor 1))

/-! PROGRESS (R167). -/

theorem percent_mono {w w' t : Nat} (h : w ≤ w') (ht : w' ≤ t) : percent w t ≤ percent w' t := by
  rcases Nat.eq_zero_or_pos t with h0 | hpos
  · have hw : w = w' := by omega
    rw [hw]
  · rw [percent_of_pos w t hpos, percent_of_pos w' t hpos]
    exact Nat.div_le_div_right (Nat.mul_le_mul_left 100 h)

theorem percent_self {t : Nat} (h : 0 < t) : percent t t = 100 := by
  rw [percent_of_pos t t h, Nat.mul_div_cancel 100 h]

/-- The value of PROGRESS when `n` data packets of a file of `total` bytes are acknowledged. -/
def progressAfter (total n : Nat) : Nat := percent (min (n * chunkSize) total) total

theorem progressAfter_le (total n : Nat) : progressAfter total n ≤ 100 := percent_le _ _ (Nat.min_le_right _ _)

theorem progressAfter_mono {total m n : Nat} (h : m ≤ n) : progressAfter total m ≤ progressAfter total n :=
  percent_mono (min_le_min_right _ (Nat.mul_le_mul_right _ h)) (Nat.min_le_right _ _)

/-- Once all packets of a file are acknowledged, PROGRESS is 100. -/
theorem progressAfter_all {total : Nat} (h : 0 < total) : progressAfter total (ceilDiv total chunkSize) = 100 := by
  rw [progressAfter, Nat.min_eq_right (le_ceilDiv_mul_chunkSize total), percent_self h]

theorem Session.Inv.progressValues_eq {P : Params} {σ : Session} (h : σ.Inv P) :
    σ.progressValues = (List.range (σ.cursor - 1)).map fun j => progressAfter σ.total (j + 1) := h.progressEach

theorem Session.Inv.pairwise_progressValues {P : Params} {σ : Session} (h : σ.Inv P) :
    σ.progressValues.Pairwise (· ≤ ·) := by
  rw [h.progressValues_eq, List.pairwise_map]
  exact List.pairwise_lt_range.imp fun hlt => progressAfter_mono (Nat.succ_le_succ (Nat.le_of_lt hlt))

theorem Session.Inv.progressValues_le {P : Params} {σ : Session} (h : σ.Inv P) : ∀ p ∈ σ.progressValues, p ≤ 100 := by
  rw [h.progressValues_eq, List.forall_mem_map]
  exact fun _ _ => progressAfter_le _ _

/-- At the end of the queue the last packet acknowledged was the file's last. -/
theorem Session.Inv.getLast?_progressValues {P : Params} {σ : Session} (h : σ.Inv P) (he : σ.cursor = σ.queue.length)
    (hpos : 0 < σ.total) : σ.progressValues.getLast? = some 100 := by
  obtain ⟨n, hn⟩ : ∃ n, ceilDiv σ.total chunkSize = n + 1 := Nat.exists_eq_add_one.mpr <| by
    simp only [ceilDiv, chunkSize]; omega
  have hc : σ.cursor - 1 = n + 1 := by rw [he, h.queueLength, hn]; omega
  rw [h.progressValues_eq, hc, List.range_succ, List.map_append, List.map_singleton, List.getLast?_concat, ← hn,
    progressAfter_all hpos]

/-- A 0-byte file has no data packet. -/
theorem Session.Inv.progressValues_eq_nil {P : Params} {σ : Session} (h : σ.Inv P) (h0 : σ.total = 0) :
    σ.progressValues = [] := by
  have hlen : σ.queue.length = 1 := by rw [h.queueLength, h0]; rfl
  have hc : σ.cursor - 1 = 0 := by have := h.cursorLe; omega
  rw [h.progressValues_eq, hc]
  rfl

/-! Packets. -/

theorem IsPacket.marker {k : Nat} {f : Bytes} (h : IsPacket k f) :
    (f.head? = some soh ∧ f.length = 133) ∨ (f.head? = some stx ∧ f.length = 1029) := by
  obtain ⟨marker, payload, rfl, ⟨rfl, hlen⟩ | ⟨rfl, hlen⟩⟩ := h
  · exact .inl ⟨head?_assembleFrame _ _ _, by rw [length_assembleFrame, hlen]; rfl⟩
  · exact .inr ⟨head?_assembleFrame _ _ _, by rw [length_assembleFrame, hlen]; rfl⟩

theorem IsPacket.length {k : Nat} {f : Bytes} (h : IsPacket k f) : f.length = 133 ∨ f.length = 1029 :=
  h.marker.imp And.right And.right

/-- A receiver's check: payload and trailer together leave the register at 0 (R106). -/
theorem IsPacket.crcFold_drop_three {k : Nat} {f : Bytes} (h : IsPacket k f) : crcFold 0 (f.drop 3) = 0 := by
  obtain ⟨marker, payload, rfl, -⟩ := h
  rw [drop_three_assembleFrame, crcFold_append, crcTrailer, payloadCrc_eq, crcFold_trailer]

theorem Session.Inv.isPacket_of_mem {P : Params} {σ : Session} {f : Bytes} (h : σ.Inv P) (hf : f ∈ σ.queue) :
    ∃ k, IsPacket k f := by
  obtain ⟨k, hk⟩ := List.mem_iff_getElem?.mp hf
  exact ⟨k, h.queuePackets k f hk⟩

end Sys2Proof.Machine

open Sys2Proof Sys2Proof.Machine

/-- Settles O52: the event is a move of the session, which extends it; WRITTEN grows because the invariant, kept by the move, ties it to
the cursor. -/
theorem registersOnlyGrow : Obligations.RegistersOnlyGrow := by
  intro s t i k σ hs h hk hσ
  obtain ⟨τ, hτ, hmove⟩ := exec_session i s t k σ h hk hσ
  obtain ⟨-, hall⟩ := hs
  have hinv := hall k σ hσ
  have hext := hmove.toExtends
  obtain ⟨ws, hws⟩ := hext.outq
  obtain ⟨es, hes⟩ := hext.emitted
  exact ⟨τ, hτ, hext.name, hext.total, hext.queue, hext.cursor, hinv.written_le (hmove.keeps_inv hinv) hext,
    ⟨ws, hws.symm⟩, ⟨es, hes.symm⟩⟩

/-- Settles O53: no move changes a settled session. -/
theorem settledSessionFrozen : Obligations.SettledSessionFrozen := by
  intro s t i k σ h hk hσ hf
  obtain ⟨τ, hτ, hmove⟩ := exec_session i s t k σ h hk hσ
  rw [hτ, hmove.settlesAtMostOnce.settled hf]

/-- Settles O55: the values are `progressAfter` at 1, 2, … up to the packets acknowledged. -/
theorem progressNeverDecreases : Obligations.ProgressNeverDecreases := fun P σ h =>
  ⟨by rw [h.progressValues_eq, List.length_map, List.length_range], h.pairwise_progressValues, h.progressValues_le,
    h.getLast?_progressValues, h.progressValues_eq_nil⟩

/-- Settles O56: a write is a packet of the queue or the bare EOT. -/
theorem writeLengthByFirstByte : Obligations.WriteLengthByFirstByte := by
  intro P σ h hbare f hf
  rcases h.writesKnown f hf with hq | rfl | ⟨hframe, -⟩
  · obtain ⟨k, hk⟩ := h.isPacket_of_mem hq
    rcases hk.marker with ⟨hhead, hlen⟩ | ⟨hhead, hlen⟩
    · exact ⟨soh, hhead, .inl ⟨rfl, hlen⟩⟩
    · exact ⟨stx, hhead, .inr (.inl ⟨rfl, hlen⟩)⟩
  · exact ⟨eot, rfl, .inr (.inr ⟨rfl, rfl⟩)⟩
  · exact absurd (hbare.symm.trans hframe) nofun

/-- Settles O57: every entry is a frame of format F, and its trailer clears the register. -/
theorem everyPacketPassesItsCrc : Obligations.EveryPacketPassesItsCrc := fun _ _ k f h hk =>
  ⟨(h.queuePackets k f hk).length, (h.queuePackets k f hk).crcFold_drop_three⟩
end

section
/-! SUPPORT. Chunks (43_session.md R165): no rule reads the events already emitted, so a chunk may be cut anywhere; a chunk as its bytes
in order, at the ports and one byte a step; and O43, O44 and O60. -/

namespace Sys2Proof.Machine

/-! The output ports are written and never read. -/

/-- The session with other events emitted before its own. -/
def Session.withPast (past : List OutEvent) (σ : Session) : Session := { σ with emitted := past ++ σ.emitted }

/-- The session with no event emitted. -/
def Session.forget (σ : Session) : Session := { σ with emitted := [] }

/-- A rule that only appends to the events emitted. -/
def IgnoresPast (rule : Session → Session) : Prop := ∀ past σ, rule (σ.withPast past) = (rule σ).withPast past

theorem Session.send_withPast (past : List OutEvent) (σ : Session) (f : Bytes) :
    (σ.withPast past).send f = (σ.send f).withPast past := by
  simp [Session.send, Session.withPast]

theorem Session.settle_withPast (past : List OutEvent) (σ : Session) (r : Result) :
    (σ.withPast past).settle r = (σ.settle r).withPast past := by
  cases hf : σ.finished with
  | true => rw [σ.settle_settled r hf, Session.settle_settled (σ.withPast past) r hf]
  | false =>
    rw [σ.settle_running r hf, Session.settle_running (σ.withPast past) r hf]
    simp [Session.withPast]

theorem ackData_ignoresPast : IgnoresPast ackData := by
  intro past σ
  rcases Nat.lt_or_ge (σ.cursor + 1) σ.queue.length with h | h
  · rw [ackData_next σ h, ackData_next (σ.withPast past) h]
    simp [Session.withPast, Session.frameAt]
  · rw [ackData_last σ h, ackData_last (σ.withPast past) h]
    simp [Session.withPast]

theorem ruleC_ignoresPast : IgnoresPast ruleC := by
  intro past σ
  simp only [ruleC, apply_ite (Session.withPast past), Session.send_withPast]
  rfl

theorem ruleAck_ignoresPast : IgnoresPast ruleAck := by
  intro past σ
  simp only [ruleAck, apply_ite (Session.withPast past), ← ackData_ignoresPast past, Session.teardown,
    ← Session.settle_withPast, ← Session.send_withPast]
  rfl

theorem ruleNak_ignoresPast (P : Params) : IgnoresPast (ruleNak P) := by
  intro past σ
  cases hP : P.eotRetx <;> simp only [ruleNak, hP, apply_ite (Session.withPast past), ← Session.send_withPast] <;> rfl

theorem ruleOf_ignoresPast (P : Params) (b : Byte) : IgnoresPast (ruleOf P b) := by
  unfold ruleOf
  split_ifs
  · exact ruleC_ignoresPast
  · exact ruleAck_ignoresPast
  · exact ruleNak_ignoresPast P
  · exact fun past σ => σ.settle_withPast past _
  · exact fun _ _ => rfl

theorem stepByte_ignoresPast (P : Params) (b : Byte) : IgnoresPast fun σ => stepByte P σ b := by
  intro past σ
  cases hf : σ.finished with
  | true => simp only [stepByte_settled P σ b hf, stepByte_settled P (σ.withPast past) b hf]
  | false =>
    have hrule := ruleOf_ignoresPast P b past σ
    simp only [stepByte, processByte_running b _ σ hf, processByte_running b _ (σ.withPast past) hf, hrule]
    rfl

theorem Session.requestRead_withPast (past : List OutEvent) (σ : Session) :
    (σ.withPast past).requestRead = σ.requestRead.withPast past := by
  cases hf : σ.finished with
  | true => rw [σ.requestRead_settled hf, Session.requestRead_settled (σ.withPast past) hf]
  | false =>
    rw [σ.requestRead_running hf, Session.requestRead_running (σ.withPast past) hf]
    simp [Session.emit, Session.withPast]

theorem runChunk_cons (P : Params) (b : Byte) (c : Bytes) (σ : Session) :
    runChunk P (b :: c) σ = runChunk P c (stepByte P σ b) := rfl

theorem runChunk_ignoresPast (P : Params) (c : Bytes) : IgnoresPast (runChunk P c) := by
  intro past σ
  induction c generalizing σ with
  | nil => exact σ.requestRead_withPast past
  | cons b c ih =>
    have hstep : stepByte P (σ.withPast past) b = (stepByte P σ b).withPast past := stepByte_ignoresPast P b past σ
    rw [runChunk_cons, runChunk_cons, hstep, ih]

/-! Sessions that differ in their READ_REQ events. -/

/-- The same registers and the same output events in the same order, READ_REQ aside. -/
def SameButReadReq (σ τ : Session) : Prop :=
  σ.forget = τ.forget ∧
    σ.emitted.filter OutEvent.notReadReq = τ.emitted.filter OutEvent.notReadReq

theorem SameButReadReq.refl (σ : Session) : SameButReadReq σ σ := ⟨rfl, rfl⟩

/-- Another READ_REQ before them changes nothing of what a rule does. -/
theorem IgnoresPast.sameButReadReq {rule : Session → Session} (h : IgnoresPast rule) (σ : Session) :
    SameButReadReq (rule (σ.emit .readReq)) (rule σ) := by
  have hpast : σ = σ.forget.withPast σ.emitted := by simp [Session.withPast, Session.forget]
  have hreq : σ.emit .readReq = σ.forget.withPast (σ.emitted ++ [.readReq]) := by
    simp [Session.withPast, Session.forget, Session.emit]
  have hrule : rule σ = (rule σ.forget).withPast σ.emitted := (congrArg rule hpast).trans (h _ _)
  rw [hreq, h, hrule]
  exact ⟨rfl, by simp [Session.withPast, OutEvent.notReadReq]⟩

/-! A chunk, cut. -/

/-- The whole of two chunks is the second, run where the bytes of the first leave the session. -/
theorem runChunk_append (P : Params) (c d : Bytes) (σ : Session) :
    runChunk P (c ++ d) σ = runChunk P d (c.foldl (stepByte P) σ) := by
  rw [runChunk, List.foldl_append, runChunk]

/-- A cut costs one READ_REQ of a running session. -/
theorem runChunk_runChunk_sameButReadReq (P : Params) (c d : Bytes) (σ : Session) :
    SameButReadReq (runChunk P d (runChunk P c σ)) (runChunk P (c ++ d) σ) := by
  rw [runChunk_append, runChunk.eq_1 P c]
  generalize c.foldl (stepByte P) σ = τ
  cases hf : τ.finished with
  | true => rw [τ.requestRead_settled hf]; exact .refl _
  | false => rw [τ.requestRead_running hf]; exact (runChunk_ignoresPast P d).sameButReadReq τ

/-! A chunk at the ports. -/

/-- The event of a first byte, then that of the rest. -/
theorem onSession_stepByte_runChunk (s : State) (b : Byte) (c : Bytes) :
    (s.onSession fun σ => stepByte s.params σ b).onSession (runChunk s.params c) =
      s.onSession (runChunk s.params (b :: c)) := by
  rw [State.onSession_onSession]
  rfl

/-- A chunk in delivery, byte by byte: one step for each byte and one for the READ_REQ, and the state is that of the whole event. -/
theorem run_chunk_in_delivery {s : State} {stream : Stream} {chunk : Bytes} {rest : List Input}
    (h : s.inputs = .bytes stream chunk :: rest) :
    Host.Core.run Sys2Proof.core (chunk.length + 1) s =
      .next ((s.takeAt stream rest).onSession (runChunk s.params chunk)) := by
  induction chunk generalizing s with
  | nil =>
    rw [List.length_nil, run_succ 0 s _ (step_of_chunk_nil h)]
    rfl
  | cons b c ih =>
    have hstep := (step_of_decode h (decode_cons b c)).trans (exec_decodeByte _ b)
    rw [List.length_cons, run_succ _ s _ hstep, ih rfl]
    exact congrArg _ (onSession_stepByte_runChunk (s.takeAt stream rest) b c)

end Sys2Proof.Machine

open Sys2Proof Sys2Proof.Machine

/-- Settles O43: a chunk is a fold of the per-byte step, and two changes of one session are one. -/
theorem chunkRunsItsBytesInOrder : Obligations.ChunkRunsItsBytesInOrder := by
  refine ⟨fun s b c => ⟨_, exec_decodeByte s b, ?_⟩, fun s σ h hf => ?_⟩
  · exact congrArg _ (onSession_stepByte_runChunk s b c).symm
  · obtain ⟨hsess, honly⟩ := s.onSession_spec (runChunk s.params []) σ h
    exact ⟨_, exec_inChunk s [], honly, hsess.trans (congrArg some (σ.requestRead_running hf))⟩

/-- Settles O44: the rules never read the events emitted, so the READ_REQ at the cut stays the only difference. -/
theorem chunkCutsCarryNoMeaning : Obligations.ChunkCutsCarryNoMeaning := by
  intro s σ c d h
  obtain ⟨ht, -⟩ := s.onSession_spec (runChunk s.params c) σ h
  obtain ⟨hu, -⟩ := (s.onSession (runChunk s.params c)).onSession_spec (runChunk s.params d) _ ht
  obtain ⟨hv, -⟩ := s.onSession_spec (runChunk s.params (c ++ d)) σ h
  exact ⟨_, _, _, _, _, exec_inChunk s c, exec_inChunk _ d, exec_inChunk s (c ++ d), hu, hv,
    runChunk_runChunk_sameButReadReq s.params c d σ⟩

/-- Settles O60, by induction on the chunk in delivery. -/
theorem byteStepsRefineTheChunk : Obligations.ByteStepsRefineTheChunk := fun s stream chunk rest h =>
  ⟨_, exec_inChunk (s.takeAt stream rest) chunk, run_chunk_in_delivery h⟩
end

section
/-! SUPPORT. The port operations' answers and what leaves everything alone (60_exceptions.md R181, 00_scope.md R9): which operation gives
which refusal code, that MAX_FILE is read nowhere, events at a stream without a session, and O11, O25, O35, O41 and O48. -/

namespace Sys2Proof.Machine

/-! Refusals. -/

/-- The row of R181's table for a refusal: its code, and the operations that can give it. -/
def RefusalRow (r : PortRefusal) (i : Instr) : Prop :=
  (r.code = 16 ∧ ((∃ stream name data, i = .start stream name data) ∨ ∃ name size, i = .buildHeader name size)) ∨
    (r.code = 17 ∧ ∃ stream name data, i = .start stream name data) ∨
    (r.code = 32 ∧ ∃ buf start length seed, i = .crc16 buf start length seed) ∨
    (r.code = 33 ∧ ∃ chunk seq isFinal, i = .buildData chunk seq isFinal)

theorem checkHeader_code {name : Bytes} {size : Nat} {r : PortRefusal} (h : checkHeader name size = some r) :
    r.code = 16 := by
  unfold checkHeader at h
  split at h <;> cases h
  rfl

theorem checkStart_code {s : State} {stream : Stream} {name data : Bytes} {r : PortRefusal}
    (h : checkStart s stream name data = some r) : r.code = 16 ∨ r.code = 17 := by
  unfold checkStart at h
  split at h
  · cases h; exact .inr rfl
  · exact .inl (checkHeader_code h)

theorem checkCrcArgs_code {buf : Bytes} {start length seed : Nat} {r : PortRefusal}
    (h : checkCrcArgs buf start length seed = some r) : r.code = 32 := by
  unfold checkCrcArgs at h
  split at h
  · cases h; rfl
  · split at h <;> cases h
    rfl

theorem checkChunk_code {chunk : Bytes} {r : PortRefusal} (h : checkChunk chunk = some r) : r.code = 33 := by
  unfold checkChunk at h
  split at h <;> cases h
  rfl

/-- Every refusal stands in its own row. -/
theorem exec_refusalRow {i : Instr} {s t : State} {r : PortRefusal} (h : exec i s = .next t)
    (hs : s.reply ≠ .refused r) (ht : t.reply = .refused r) : RefusalRow r i := by
  cases i with
  | c | ack | nak | ca | other | inChunk | inEos | readFail | writeFail | writeDone => cases h; exact absurd ht hs
  | split | buildEot => cases h; cases ht
  | start stream name data =>
    simp only [exec, execStart] at h
    split at h <;> (cases h; cases ht)
    next hc =>
      exact (checkStart_code hc).imp (⟨·, .inl ⟨_, _, _, rfl⟩⟩) fun hcode => .inl ⟨hcode, _, _, _, rfl⟩
  | buildHeader name size =>
    simp only [exec, execBuildHeader] at h
    split at h <;> (cases h; cases ht)
    next hc => exact .inl ⟨checkHeader_code hc, .inr ⟨_, _, rfl⟩⟩
  | crc16 buf start length seed =>
    simp only [exec, execCrc16] at h
    split at h <;> (cases h; cases ht)
    next hc => exact .inr (.inr (.inl ⟨checkCrcArgs_code hc, _, _, _, _, rfl⟩))
  | buildData chunk seq isFinal =>
    simp only [exec, execBuildData] at h
    split at h <;> (cases h; cases ht)
    next hc => exact .inr (.inr (.inr ⟨checkChunk_code hc, _, _, _, rfl⟩))

/-- An event that turns the answer into a refusal has only answered: acceptance is no refusal, and a move leaves the answer. -/
theorem exec_refused_eq_answer {i : Instr} {s t : State} {r : PortRefusal} (h : exec i s = .next t)
    (hs : s.reply ≠ .refused r) (ht : t.reply = .refused r) : t = s.answer (.refused r) := by
  rcases exec_next_cases i s t h with ⟨r', rfl⟩ | ⟨stream, name, data, -, -, -, rfl⟩ | ⟨-, f, rfl, -⟩
  · rw [← ht, State.answer_reply]
  · cases ht
  · exact absurd ht hs

/-! MAX_FILE. -/

/-- The state with another value of MAX_FILE. -/
def State.withMaxFile (s : State) (m : Option Nat) : State := { s with params := { s.params with maxFile := m } }

/-- No instruction reads MAX_FILE: the state after it is the same but for the value held. -/
theorem exec_withMaxFile (i : Instr) (s : State) (m : Option Nat) :
    ∃ t, exec i s = .next t ∧ exec i (s.withMaxFile m) = .next (t.withMaxFile m) := by
  cases i with
  | c | ack | nak | ca | other | inChunk | inEos | readFail | writeFail | writeDone | split | buildEot =>
    exact ⟨_, rfl, rfl⟩
  | start stream name data =>
    have hcheck : checkStart (s.withMaxFile m) stream name data = checkStart s stream name data := rfl
    cases hc : checkStart s stream name data <;> simp only [exec, execStart, hcheck, hc] <;> exact ⟨_, rfl, rfl⟩
  | crc16 buf start length seed =>
    cases hc : checkCrcArgs buf start length seed <;> simp only [exec, execCrc16, hc] <;> exact ⟨_, rfl, rfl⟩
  | buildHeader name size =>
    cases hc : checkHeader name size <;> simp only [exec, execBuildHeader, hc] <;> exact ⟨_, rfl, rfl⟩
  | buildData chunk seq isFinal =>
    cases hc : checkChunk chunk <;> simp only [exec, execBuildData, hc] <;> exact ⟨_, rfl, rfl⟩

/-! Events that do nothing. -/

/-- With no session at its ports, an event that acts on one is discarded. -/
theorem exec_onSession_none {i : Instr} {s : State} {f : Session → Session} (hi : exec i s = .next (s.onSession f))
    (h : s.session? s.sel = none) : exec i s = .next s := by
  rw [hi, s.onSession_of_fixed f fun σ hσ => absurd (h.symm.trans hσ) nofun]

/-- R140 as this model takes it (log 7). -/
theorem ruleAck_unarmed {σ : Session} (ha : σ.active = true) (hr : σ.armed = false) : ruleAck σ = σ := by
  simp [ruleAck, ha, hr]

end Sys2Proof.Machine

open Sys2Proof Sys2Proof.Machine

/-- Settles O11: START's checks and the session it creates do not read the parameters, and no other instruction reads this one. -/
theorem maxFileBoundsNothing : Obligations.MaxFileBoundsNothing := by
  refine ⟨fun s stream name data m hfree hfits _ _ => ?_, fun s i m => ?_⟩
  · exact ⟨_, execStart_accepted s stream name data hfree hfits, State.putSession_same _ _ _, rfl⟩
  · obtain ⟨t, ht, hm⟩ := exec_withMaxFile i s m
    exact ⟨t, ht, hm.trans (by rw [State.withMaxFile, exec_params ht])⟩

/-- Settles O25: EOT_FRAME is 0x04 and the open bytes, whatever they are. -/
theorem buildEotResult : Obligations.BuildEotResult := fun s =>
  ⟨s.params.eotFrame, exec_buildEot s, rfl, Nat.succ_le_succ (Nat.zero_le _)⟩

/-- Settles O35, by the last branch of R134's dispatch. -/
theorem ackUnarmedDoesNothing : Obligations.AckUnarmedDoesNothing := fun s _ h hf ha hr =>
  exec_processByte_running (exec_ack s) h hf (ruleAck_unarmed ha hr)

/-- Settles O41: each of these events acts on the session at its ports, and there is none. -/
theorem eventsWithoutSessionDiscarded : Obligations.EventsWithoutSessionDiscarded := by
  intro s i h hi
  rcases hi with hp | ⟨c, rfl⟩ | rfl | rfl | rfl | rfl
  · cases i with
    | c => exact exec_onSession_none (exec_c s) h
    | ack => exact exec_onSession_none (exec_ack s) h
    | nak => exact exec_onSession_none (exec_nak s) h
    | ca => exact exec_onSession_none (exec_ca s) h
    | other b => exact exec_onSession_none (exec_other s b) h
    | _ => exact Bool.noConfusion hp
  · exact exec_onSession_none (exec_inChunk s c) h
  · exact exec_onSession_none (exec_inEos s) h
  · exact exec_onSession_none (exec_readFail s) h
  · exact exec_onSession_none (exec_writeFail s) h
  · exact exec_writeDone s

/-- Settles O48: a new refusal is an answer and nothing else, and each check gives the codes of its own row. -/
theorem refusalsChangeNothing : Obligations.RefusalsChangeNothing :=
  ⟨fun _ _ _ _ h hs ht => ⟨exec_refused_eq_answer h hs ht, exec_refusalRow h hs ht⟩, rfl, rfl⟩
end
